-- ==== Sys2Proof/Word.lean ====
section
/-! DEFINITION. The word types of the block (00 R16, R17): every value the spec gives a width is a bit vector of that width,
unsigned, bit 0 the least significant. -/

namespace Sys2Proof

/-- A byte, `UInt8` (R17). -/
abbrev Byte := BitVec 8

/-- A 3-bit sequence value; its arithmetic is modulo `SEQ_MOD` = 8 (R12, R19). -/
abbrev Seq := BitVec 3

/-- A 16-bit CRC value, `UInt16` (R35, R36). -/
abbrev Crc := BitVec 16

/-- A 32-bit millisecond count, `UInt32`; its arithmetic is modulo 2^32 (R16). -/
abbrev Time := BitVec 32

/-- A 16-bit command word (R100). -/
abbrev CmdWord := BitVec 16

end Sys2Proof
end

