-- ==== Sys2Proof/Config.lean ====
section
/-! DEFINITION. The parameters an instantiation of the block fixes (00 R12), and the one open function among them. -/

namespace Sys2Proof

/-- `WINDOW_SIZE` (R12, R13): 1, 2 or 4, and no other. -/
inductive WindowSize where
  | one
  | two
  | four
  deriving DecidableEq, Repr

/-- `OUTSIDE_POLICY` (R12, R222). -/
inductive OutsidePolicy where
  | fatal
  | resync
  deriving DecidableEq, Repr

/-- `RX_OVERFLOW_POLICY` (R12, R227). -/
inductive RxOverflowPolicy where
  | drop
  | fault
  deriving DecidableEq, Repr

/-- `SHORT_FRAME_POLICY` (R12, R253). -/
inductive ShortFramePolicy where
  | drop
  | fault
  deriving DecidableEq, Repr

/-- `CRC_UPDATE` (R12, R141): the default recurrence of R142, or another function that meets R143.
DESIGN CHOICE, log 3: a parameter is plain data, so another function is held as the number of an open one. Safe. -/
inductive CrcUpdate where
  | standard
  | other (n : Nat)
  deriving DecidableEq, Repr

/-- The parameters of an instantiation, in the order of R12's table. `SEQ_BITS`, `SEQ_MOD` and `CRC_INIT` are fixed by the
table and are no fields. A Boolean field is the table's 1 or 0. -/
structure Params where
  window           : WindowSize
  frameByte        : Byte
  escapeByte       : Byte
  escapeMask       : Byte
  crcUpdate        : CrcUpdate
  ackDelay         : Time
  maxPayload       : Nat
  rxBufSize        : Nat
  outsidePolicy    : OutsidePolicy
  rxOverflowPolicy : RxOverflowPolicy
  shortFramePolicy : ShortFramePolicy
  piggybackOnData  : Bool
  timeoutStrict    : Bool
  deriving DecidableEq, Repr

/-- `W`, the size of the send window and the number of TX slots (R12, R13). -/
def WindowSize.size : WindowSize → Nat
  | .one => 1
  | .two => 2
  | .four => 4

/-- `SLOT_MASK` = `W − 1` (R12). -/
def WindowSize.mask : WindowSize → Seq
  | .one => 0
  | .two => 1
  | .four => 3

/-- `SEQ_MOD` (R12). -/
def Config.seqMod : Nat := 8

/-- `CRC_INIT` (R12, R140). -/
def Config.crcInit : Crc := 0xFFFF

/-- The defaults of R12's table. `MAX_PAYLOAD` and `RX_BUF_SIZE` are OPEN there.
DESIGN CHOICE, log 2: 16 and 19, the values the spec's own vectors take (95 section 0). Unsafe for a claim about
`State.reset` alone; the statements hold for every value. -/
def Params.default : Params where
  window           := .four
  frameByte        := 0x7E
  escapeByte       := 0x7D
  escapeMask       := 0x20
  crcUpdate        := .standard
  ackDelay         := 20
  maxPayload       := 16
  rxBufSize        := 19
  outsidePolicy    := .fatal
  rxOverflowPolicy := .drop
  shortFramePolicy := .drop
  piggybackOnData  := false
  timeoutStrict    := false

/-- Functions about which nothing is known: the raw material of `CrcUpdate.other n` (`Machine.crcUpdate` uses one only if it
meets the law of R143). A claim that holds for `other n` holds for every function that meets the law. DESIGN CHOICE, log 3. -/
opaque Config.crcUpdateOpen : Nat → Crc → Byte → Crc

end Sys2Proof
end

