-- ==== Sys2Proof/Syntax.lean ====
section
/-! DEFINITION. The commands of spec/opcode_table.json, one constructor a row, and the spec's textual command lines with their
pseudo-commands (30 R102, R113, R114). What each means is in Machine/. -/

namespace Sys2Proof

/-- The seven commands of the opcode map (R102). An operand is a byte as it stands (R101). -/
inductive Instr where
  | init
  | feed (b : Byte)
  | start
  | append (b : Byte)
  | finish
  | avail
  | tick
  deriving DecidableEq, Repr

/-- Why a 16-bit word is no legal command (R103). -/
inductive DecodeError where
  /-- `OPC` is 0x00 or lies in 0x08..0xFF. -/
  | opcodeOutsideMap (opc : Byte)
  /-- A no-operand opcode with `OPD ≠ 0x00`. -/
  | operandNotZero (opc opd : Byte)
  deriving DecidableEq, Repr

/-- The agents that issue commands (20 R80). -/
inductive Agent where
  | owner
  | rxFeeder
  | application
  | platformTimer
  deriving DecidableEq, Repr

/-- Which agent issues which command (R80). -/
def Instr.agent : Instr → Agent
  | .init => .owner
  | .feed _ => .rxFeeder
  | .start => .application
  | .append _ => .application
  | .finish => .application
  | .avail => .application
  | .tick => .platformTimer

/-- What a command line says: a command or one of the three pseudo-commands (R113, R114). -/
inductive LineBody where
  | command (i : Instr)
  | feeds (bytes : List Byte)
  | appends (bytes : List Byte)
  | send (bytes : List Byte)
  deriving DecidableEq, Repr

/-- A command line with its optional time prefix `@t`, `t` in milliseconds (R113). -/
structure Line where
  time : Option Nat
  body : LineBody
  deriving DecidableEq, Repr

end Sys2Proof
end

