-- ==== Sys2Proof/Machine/State.lean ====
section
/-! DEFINITION. The state of the block (10 R30) as plain data, its reset value, and the reasons a step can stop. -/

namespace Sys2Proof.Machine

/-- `FRAME_STATE` (10 R34). The encoding value 3 is never written, so the field has three values. -/
inductive FrameState where
  | outsideFrame
  | inFrame
  | inFrameEscaped
  deriving DecidableEq, Repr

/-- `SLOT_STATUS[i]` (10 R42). The encoding value 3 is never written, so the field has three values. -/
inductive SlotStatus where
  | none
  | preparing
  | sent
  deriving DecidableEq, Repr

/-- A byte memory (20 R70, R71): the bytes that differ from what an unlisted index reads as (`Memory.unlisted` in Ops.lean),
by rising index. -/
structure Memory where
  cells : List Host.Cell
  deriving DecidableEq, Repr

/-- One TX slot (10 R42 to R45): `SLOT_STATUS[i]`, `SLOT_LEN[i]`, `SLOT_TIME[i]` and the bytes `SLOT[i]`. -/
structure Slot where
  status  : SlotStatus
  len     : Nat
  time    : Time
  payload : Memory
  deriving DecidableEq, Repr

/-- One offer at the command port: a command word with its sample of the time input (30 R100). -/
structure Request where
  word : CmdWord
  now  : Time
  deriving DecidableEq, Repr

/-- The output events (00 R20). -/
inductive Event where
  | emit (b : Byte)
  | flush
  | deliver (payload : List Byte)
  | arm (delay : Time)
  | cancel
  | avail (v : Byte)
  deriving DecidableEq, Repr

/-- The state of the block: the registers and memories of 10 R30, in its order. The last four fields are the model's own
(log 1, log 4, log 8): the parameters, the command port, the time input and the output stream, which R55 names as no state. -/
structure State where
  txSeq      : Seq
  rxSeq      : Seq
  ackSeq     : Seq
  frameState : FrameState
  rxCrc      : Crc
  txCrc      : Crc
  rxLen      : Nat
  rxOvf      : Bool
  timerArmed : Bool
  faultCode  : Byte
  faultInfo  : Byte
  slots      : List Slot
  rxBuf      : Memory
  params     : Params
  port       : List Request
  now        : Time
  out        : List Event
  deriving DecidableEq, Repr

/-- The fault codes (60 R320). -/
inductive FaultName where
  | outsideFrameByte
  | windowOverrun
  | packetAlreadyOpen
  | noOpenPacket
  | txPayloadOverflow
  | rxBufferOverflow
  | illegalCommand
  | shortFrame
  deriving DecidableEq, Repr

/-- What `raise Fault(code, info)` names (00 R22). -/
structure Raised where
  name : FaultName
  info : Byte
  deriving DecidableEq, Repr

/-- Host-level faults: there are none. A fault of the block is a recorded fault, "never a final state" (60 R322), so a command
that faults answers a next state (`State.takeFault`). DEDUCED, log 5. Safe: no step of the model is lost by it. -/
inductive Fault where
  deriving DecidableEq, Repr

/-- Host-level refusals. -/
inductive Refusal where
  /-- Raised by an arm of `exec` whose instruction has no meaning yet. None is left. Safe: no state follows. -/
  | notModelled (mnemonic : String)
  /-- Raised by `State.debugWrite` only, never by a command: "a write through it is not defined: a model refuses it" (10 R56).
  Safe: no state follows. -/
  | debugWriteUndefined (register : Byte)
  deriving DecidableEq, Repr

/-- A memory of which no byte is listed. -/
def Memory.empty : Memory := ⟨[]⟩

/-- A TX slot at power-on (10 R30). -/
def Slot.reset : Slot where
  status  := .none
  len     := 0
  time    := 0
  payload := Memory.empty

/-- The block with parameters `P` right after power-on (10 R30, 70 R350, R351). DESIGN CHOICE, log 4 and log 8: nothing waits
at the port, the time input reads 0 and nothing has been emitted. -/
def State.powerOn (P : Params) : State where
  txSeq      := 0
  rxSeq      := 0
  ackSeq     := 0
  frameState := .outsideFrame
  rxCrc      := 0xFFFF
  txCrc      := 0xFFFF
  rxLen      := 0
  rxOvf      := false
  timerArmed := false
  faultCode  := 0
  faultInfo  := 0
  slots      := List.replicate P.window.size Slot.reset
  rxBuf      := Memory.empty
  params     := P
  port       := []
  now        := 0
  out        := []

/-- The machine right after reset, of the instance with the default parameters (log 2). -/
def State.reset : State := State.powerOn Params.default

end Sys2Proof.Machine
end

