-- ==== Sys2Proof/Machine/Ops.lean ====
section
/-! DEFINITION. The shared operations: byte memories (00 R21), slot registers, output events (00 R20), and a command's one way
to fault and the one way out of the fault state (00 R22, 60 R321, R322, 70 R350). -/

namespace Sys2Proof.Machine

/-! ### Byte memories -/

/-- What a byte that nothing has written reads as: the contents are "unspecified after power-on" and "a model may hold them as
any bytes" (70 R350, R351). DESIGN CHOICE, log 9: 0x00. Unsafe for a claim about an unwritten byte. -/
def Memory.unlisted : Byte := 0

/-- The byte listed for index `k`. -/
def Memory.lookup : List Host.Cell → Nat → Byte
  | [], _ => Memory.unlisted
  | c :: rest, k => if c.1 = k then c.2 else Memory.lookup rest k

/-- Put a cell in its place by rising index. -/
def Memory.insert (c : Host.Cell) : List Host.Cell → List Host.Cell
  | [] => [c]
  | d :: rest => if d.1 < c.1 then d :: Memory.insert c rest else c :: d :: rest

/-- `MemRead(·, k, 1)` (R21). It has no side effect (20 R76). -/
def Memory.read (m : Memory) (k : Nat) : Byte := Memory.lookup m.cells k

/-- `MemWrite(·, k, 1, v)` (R21): it changes only the byte it names (20 R76). Writing what an unlisted byte reads as removes
the entry, so that equal memories are equal data. -/
def Memory.write (m : Memory) (k : Nat) (v : Byte) : Memory :=
  let others := m.cells.filter fun c => c.1 ≠ k
  ⟨if v = Memory.unlisted then others else Memory.insert (k, v) others⟩

/-- The canonical form: indices strictly rising, no entry equal to what an unlisted byte reads as. -/
abbrev Memory.wf (m : Memory) : Prop :=
  m.cells.Pairwise (fun c d => c.1 < d.1) ∧ ∀ c ∈ m.cells, c.2 ≠ Memory.unlisted

/-- Every listed byte has an index below `size`: the memory is an array of `size` bytes (20 R70, R71). -/
abbrev Memory.within (m : Memory) (size : Nat) : Prop :=
  ∀ c ∈ m.cells, c.1 < size

/-- The bytes at indices `lo, …, lo + n − 1`, in rising order. -/
def Memory.readRange (m : Memory) (lo n : Nat) : List Byte :=
  (List.range n).map fun k => m.read (lo + k)

/-! ### Slot registers -/

/-- TX slot `i`. A run has `W` slots and asks only for `i < W` (log 10). -/
def State.slot (s : State) (i : Nat) : Slot := s.slots.getD i Slot.reset

/-- Change TX slot `i` and no other. -/
def State.modifySlot (s : State) (i : Nat) (f : Slot → Slot) : State :=
  { s with slots := s.slots.modify i f }

/-- `SLOT_STATUS[i] <- st`. -/
def State.setStatus (s : State) (i : Nat) (st : SlotStatus) : State :=
  s.modifySlot i fun sl => { sl with status := st }

/-- `SLOT_LEN[i] <- n`. -/
def State.setLen (s : State) (i n : Nat) : State :=
  s.modifySlot i fun sl => { sl with len := n }

/-- `SLOT_TIME[i] <- t`. -/
def State.setTime (s : State) (i : Nat) (t : Time) : State :=
  s.modifySlot i fun sl => { sl with time := t }

/-- `MemWrite(SLOT[i], k, 1, v)`. -/
def State.writePayload (s : State) (i k : Nat) (v : Byte) : State :=
  s.modifySlot i fun sl => { sl with payload := sl.payload.write k v }

/-! ### Output events -/

/-- Append events to the output stream, in order (00 R20, 20 R81). -/
def State.outputs (s : State) (es : List Event) : State := { s with out := s.out ++ es }

/-- Append one event to the output stream. -/
def State.output (s : State) (e : Event) : State := s.outputs [e]

/-! ### Faults -/

/-- The fault codes of 60 R320. -/
def FaultName.code : FaultName → Byte
  | .outsideFrameByte => 1
  | .windowOverrun => 2
  | .packetAlreadyOpen => 3
  | .noOpenPacket => 4
  | .txPayloadOverflow => 5
  | .rxBufferOverflow => 6
  | .illegalCommand => 7
  | .shortFrame => 8

/-- Fault entry, the one way any command faults: only `FAULT_CODE` and `FAULT_INFO` change (00 R22, 60 R321). -/
def State.takeFault (s : State) (r : Raised) : State :=
  { s with faultCode := r.name.code, faultInfo := r.info }

/-- The exit from the fault state and the reset of every register (70 R350). The memories, like the model's own fields, are
unchanged, and nothing is emitted. -/
def State.initialise (s : State) : State :=
  { s with
    txSeq := 0, rxSeq := 0, ackSeq := 0
    frameState := .outsideFrame
    rxCrc := Config.crcInit, txCrc := Config.crcInit
    rxLen := 0, rxOvf := false
    timerArmed := false
    faultCode := 0, faultInfo := 0
    slots := s.slots.map fun sl => { sl with status := .none, len := 0, time := 0 } }

/-- The condition codes of the block are none; this is its one sticky condition (10 R52): the block is in the fault state. -/
def State.faulted (s : State) : Bool := s.faultCode ≠ 0

/-- One command other than INIT as one atomic step (00 R23). In the fault state it is not taken and changes nothing (30 R104,
60 R322; log 7). Where its rule raises a fault, none of its own writes and events is made (R22), so the fault is entered from
the state the command found. -/
def State.perform (s : State) (body : State → Except Raised State) :
    Host.Outcome State Fault Refusal :=
  if s.faulted then .next s
  else
    match body s with
    | .ok t => .next t
    | .error r => .next (s.takeFault r)

end Sys2Proof.Machine
end

