-- ==== Sys2Proof/Machine/Reset.lean ====
section
/-! DEFINITION. INIT (70 R350). -/

namespace Sys2Proof.Machine

/-- INIT: legal in every state, the fault state included; it raises nothing and emits nothing. -/
def execInit (s : State) : Host.Outcome State Fault Refusal := .next s.initialise

end Sys2Proof.Machine
end

