-- ==== Sys2Proof/Machine/Operands.lean ====
section
/-! DEFINITION. Sequence arithmetic (00 R19), the control byte (30 R106), the fields of a received frame (30 R109, 44 R255) and
time arithmetic (45 R283). -/

namespace Sys2Proof.Machine

/-! ### Sequence values -/

/-- `seq_add(a, k)` (R19): modulo 8, the wrap of a 3-bit value. -/
def seqAdd (a : Seq) (k : Nat) : Seq := a + BitVec.ofNat 3 k

/-- `seq_dist(a, b)` (R19): the steps from `a` forward to `b`, 0 to 7. -/
def seqDist (a b : Seq) : Nat := (b - a).toNat

/-- `slot(s) = s & SLOT_MASK` (R19). -/
def slotIndex (w : WindowSize) (q : Seq) : Nat := (q &&& w.mask).toNat

/-! ### The control byte -/

/-- The control byte of a data frame: `0x80 | (RX_SEQ << 3) | s` (R106). -/
def dataControl (rxSeq q : Seq) : Byte :=
  0x80 ||| (rxSeq.setWidth 8 <<< 3) ||| q.setWidth 8

/-- The control byte of an ACK-only frame: `0x00 | (RX_SEQ << 3) | TX_SEQ` (R106). -/
def ackControl (rxSeq txSeq : Seq) : Byte :=
  0x00 ||| (rxSeq.setWidth 8 <<< 3) ||| txSeq.setWidth 8

/-- `is_data`, bit 7 (R108, 44 R254). -/
def isData (ctrl : Byte) : Bool := ctrl.getLsbD 7

/-- `piggyback_rx_seq`, bits [5:3] (R108, 44 R254). -/
def piggyback (ctrl : Byte) : Seq := ctrl.extractLsb' 3 3

/-- `sender_seq`, bits [2:0] (R108, 44 R254). -/
def senderSeq (ctrl : Byte) : Seq := ctrl.extractLsb' 0 3

/-! ### CRC trailer bytes -/

/-- `crc_lo = C[7:0]`, sent first (20 R73). -/
def crcLow (c : Crc) : Byte := c.extractLsb' 0 8

/-- `crc_hi = C[15:8]`, sent second (20 R73). -/
def crcHigh (c : Crc) : Byte := c.extractLsb' 8 8

/-! ### The received frame -/

/-- The control byte of the closed frame, `RXBUF[0]` (R109). -/
def State.frameControl (s : State) : Byte := s.rxBuf.read 0

/-- The payload of the closed frame, `RXBUF[1 .. L−3]` with `L = RX_LEN ≥ 3` (R109, 44 R255). -/
def State.framePayload (s : State) : List Byte := s.rxBuf.readRange 1 (s.rxLen - 3)

/-! ### Time -/

/-- `Elapsed(t) = (now − t) mod 2^32`, in milliseconds (45 R283). -/
def State.elapsed (s : State) (t : Time) : Nat := (s.now - t).toNat

end Sys2Proof.Machine
end

