-- ==== Sys2Proof/Machine/Crc.lean ====
section
/-! DEFINITION. The CRC engine (40_crc.md). -/

namespace Sys2Proof.Machine

/-- The default `CRC_UPDATE(c, b)`, line by line (40 R142). -/
def crcUpdateDefault (c : Crc) (b : Byte) : Crc :=
  let d : Byte := b ^^^ crcLow c
  let d : Byte := d ^^^ (d <<< 4)
  (d ++ crcHigh c) ^^^ (d >>> 4).setWidth 16 ^^^ (d.setWidth 16 <<< 3)

/-- Law (L2) of 40 R143: zero residue for a little-endian trailer. -/
abbrev meetsZeroResidue (f : Crc → Byte → Crc) : Prop :=
  ∀ c : Crc, f (f c (crcLow c)) (crcHigh c) = 0

/-- `CRC_UPDATE` (40 R141, R143): the default, or the open function of that number where it meets (L2). Every function that
meets R143 is allowed and no other; log 3. -/
def crcUpdate (u : CrcUpdate) (c : Crc) (b : Byte) : Crc :=
  match u with
  | .standard => crcUpdateDefault c b
  | .other n =>
    if meetsZeroResidue (Config.crcUpdateOpen n) then Config.crcUpdateOpen n c b
    else crcUpdateDefault c b

/-- `CRC(x0..xk)` from `CRC_INIT` (40 R145). -/
def crcOf (u : CrcUpdate) (bytes : List Byte) : Crc :=
  bytes.foldl (crcUpdate u) Config.crcInit

/-- One step of the bit-serial form (40 R148). -/
def crcBitStep (c : Crc) : Crc :=
  if c.getLsbD 0 then (c >>> 1) ^^^ 0x8408 else c >>> 1

/-- The bit-serial form of the default recurrence: 8 steps after `c <- c ^ zext_16(b)` (40 R148). -/
def crcUpdateBitSerial (c : Crc) (b : Byte) : Crc :=
  (List.range 8).foldl (fun acc _ => crcBitStep acc) (c ^^^ b.setWidth 16)

/-- `RX_CRC <- CRC_INIT` (40 R140). -/
def State.resetRxCrc (s : State) : State := { s with rxCrc := Config.crcInit }

/-- `TX_CRC <- CRC_INIT` (40 R140). -/
def State.resetTxCrc (s : State) : State := { s with txCrc := Config.crcInit }

/-- `RX_CRC <- CRC_UPDATE(RX_CRC, v)` (40 R141). -/
def State.updateRxCrc (s : State) (v : Byte) : State :=
  { s with rxCrc := crcUpdate s.params.crcUpdate s.rxCrc v }

/-- `TX_CRC <- CRC_UPDATE(TX_CRC, v)` (40 R141). -/
def State.updateTxCrc (s : State) (v : Byte) : State :=
  { s with txCrc := crcUpdate s.params.crcUpdate s.txCrc v }

end Sys2Proof.Machine
end

