-- ==== Sys2Proof/Machine/EscapeCodec.lean ====
section
/-! DEFINITION. The escape codec (41_escape_codec.md) and the wire form of a frame (30 R105, R110). -/

namespace Sys2Proof.Machine

/-- `v` is one of the two reserved values (41 R160). -/
def reserved (P : Params) (v : Byte) : Bool := v = P.frameByte || v = P.escapeByte

/-- `Esc(v)`, the wire form of one body byte (30 R110). -/
def esc (P : Params) (v : Byte) : List Byte :=
  if reserved P v then [P.escapeByte, v ^^^ P.escapeMask] else [v]

/-- The destuffer's value for the wire byte after an escape byte (41 R164). -/
def unescape (P : Params) (b : Byte) : Byte := b ^^^ P.escapeMask

/-- The wire form of a frame with de-escaped body `body`: delimiter, stuffed body, delimiter (30 R105). -/
def frameWire (P : Params) (body : List Byte) : List Byte :=
  [P.frameByte] ++ body.flatMap (esc P) ++ [P.frameByte]

/-- A body prefix with its CRC trailer, low byte first (40 R145, 20 R73). -/
def withTrailer (u : CrcUpdate) (pre : List Byte) : List Byte :=
  pre ++ [crcLow (crcOf u pre), crcHigh (crcOf u pre)]

/-- The events of one whole frame with body prefix `pre`: its wire bytes, then `Flush` (30 R105, 20 R77). -/
def frameEvents (P : Params) (pre : List Byte) : List Event :=
  (frameWire P (withTrailer P.crcUpdate pre)).map .emit ++ [.flush]

/-- `EmitEsc(v)` (41 R161): no state but the output stream. -/
def State.emitEsc (s : State) (v : Byte) : State := s.outputs ((esc s.params v).map Event.emit)

/-- `Emit(FRAME_BYTE)`: a delimiter is emitted bare, never through the stuffer (41 R162). -/
def State.emitDelimiter (s : State) : State := s.output (.emit s.params.frameByte)

/-- `TxByte(v)` (42 R199): the CRC takes the logical byte, the link its wire form. -/
def State.txByte (s : State) (v : Byte) : State := (s.updateTxCrc v).emitEsc v

/-- `TxByte` over a byte string, in order. -/
def State.txBytes (s : State) (vs : List Byte) : State := vs.foldl State.txByte s

/-- The end of every frame the block sends: `C <- TX_CRC`, the trailer bytes of `C` escaped, the delimiter, `Flush`
(42 R189, R197, 44 R260). The trailer bytes do not update `TX_CRC`. -/
def State.endFrame (s : State) : State :=
  (((s.emitEsc (crcLow s.txCrc)).emitEsc (crcHigh s.txCrc)).emitDelimiter).output .flush

end Sys2Proof.Machine
end

