-- ==== Sys2Proof/Machine/Flags.lean ====
section
/-! DEFINITION. The conditions the command rules test: derived state (10 R47, R48), the SENT slots, and the overdue test
(45 R284). The block has no condition codes (10 R52). -/

namespace Sys2Proof.Machine

/-- The slot of sequence value `q` in this instance (00 R19). -/
def State.slotOf (s : State) (q : Seq) : Nat := slotIndex s.params.window q

/-- `TX_OPEN` (10 R47). -/
def State.txOpen (s : State) : Bool := (s.slot (s.slotOf s.txSeq)).status = .preparing

/-- `OUT`, the number of outstanding data frames (10 R48). -/
def State.outstanding (s : State) : Nat := seqDist s.ackSeq s.txSeq

/-- The `k`-th outstanding sequence, the oldest first: `seq_add(ACK_SEQ, k)` for `k < OUT` (10 R48). -/
def State.outstandingSeq (s : State) (k : Nat) : Seq := seqAdd s.ackSeq k

/-- The slots whose status is SENT. -/
def State.sentSlots (s : State) : List Slot := s.slots.filter fun sl => sl.status = .sent

/-- Some slot is SENT (45 R280, R286). -/
def State.anySent (s : State) : Bool := s.slots.any fun sl => sl.status = .sent

/-- `max { Elapsed(SLOT_TIME[i]) : SLOT_STATUS[i] = SENT }` (45 R280), 0 if there is none. -/
def State.largestElapsed (s : State) : Nat :=
  (s.sentSlots.map fun sl => s.elapsed sl.time).foldl max 0

/-- The time comparison of the overdue test: `≥`, or `>` under `TIMEOUT_STRICT = 1` (45 R284). -/
def State.timedOut (s : State) (t : Time) : Bool :=
  if s.params.timeoutStrict then s.params.ackDelay.toNat < s.elapsed t
  else s.params.ackDelay.toNat ≤ s.elapsed t

/-- Slot `i` is overdue (45 R284). -/
def State.overdue (s : State) (i : Nat) : Bool :=
  (s.slot i).status = .sent && s.timedOut (s.slot i).time

/-- `AVAIL`'s value: `((W − 1) − seq_dist(seq_add(ACK_SEQ, 1), TX_SEQ)) mod SEQ_MOD`, as a byte (42 R193). -/
def State.available (s : State) : Byte :=
  BitVec.ofNat 8
    ((((s.params.window.size : Int) - 1) - (seqDist (seqAdd s.ackSeq 1) s.txSeq : Int)) % (Config.seqMod : Int)).toNat

end Sys2Proof.Machine
end

