-- ==== Sys2Proof/Machine/AckRetransmit.lean ====
section
/-! DEFINITION. ACK processing and retransmit scheduling (45_ack_retransmit.md), with `Retransmit` (42 R197): TICK. -/

namespace Sys2Proof.Machine

/-- `Arm(d); TIMER_ARMED <- 1` (10 R39). -/
def State.armTimer (s : State) (d : Time) : State := { s.output (.arm d) with timerArmed := true }

/-- `Cancel; TIMER_ARMED <- 0` where the timer is armed, and nothing where it is not (10 R39, 45 R280). -/
def State.cancelTimer (s : State) : State :=
  if s.timerArmed then { s.output .cancel with timerArmed := false } else s

/-- `Retransmit(q)` (42 R197). No sequence register changes. -/
def State.retransmit (s : State) (q : Seq) : State :=
  let i := s.slotOf q
  let sl := s.slot i
  let s₁ := (s.resetTxCrc.emitDelimiter).txByte (dataControl s.rxSeq q)
  let s₂ := s₁.txBytes (sl.payload.readRange 0 sl.len)
  s₂.endFrame.setTime i s.now

/-- The slots of the `n` sequences from `q` on become NONE (45 R281: the half-open walk from `ACK_SEQ`). -/
def State.clearSlots (s : State) (q : Seq) (n : Nat) : State :=
  (List.range n).foldl (fun t k => t.setStatus (s.slotOf (seqAdd q k)) .none) s

/-- `d <- (ACK_DELAY − e) if e < ACK_DELAY else 0` (45 R280). -/
def State.rearmDelay (s : State) : Time :=
  BitVec.ofNat 32 (s.params.ackDelay.toNat - s.largestElapsed)

/-- `AckUpto(p)` (45 R280). A duplicate or out-of-range value is a no-op (R282). -/
def State.ackUpto (s : State) (p : Seq) : State :=
  let dn := seqDist s.ackSeq p
  if dn = 0 ∨ s.outstanding < dn then s
  else
    let s₁ := { s.clearSlots s.ackSeq dn with ackSeq := p }
    let s₂ := s₁.cancelTimer
    if s₂.anySent then s₂.armTimer s₂.rearmDelay else s₂

/-- The oldest outstanding sequence whose slot is overdue, scanning from `ACK_SEQ` over the `OUT` outstanding sequences
(45 R286, R288). -/
def State.oldestOverdue (s : State) : Option Seq :=
  ((List.range s.outstanding).map s.outstandingSeq).find? fun q => s.overdue (s.slotOf q)

/-- `CheckTimeouts` (45 R286): at most one retransmission (R287), then re-arm; a stale tick is a no-op (R289). -/
def State.checkTimeouts (s : State) : State :=
  if s.anySent then
    let s₁ :=
      match s.oldestOverdue with
      | some q => s.retransmit q
      | none => s
    s₁.armTimer s.params.ackDelay
  else s

/-- TICK (45 R286). -/
def execTick (s : State) : Host.Outcome State Fault Refusal :=
  s.perform fun s => .ok s.checkTimeouts

end Sys2Proof.Machine
end

