-- ==== Sys2Proof/Machine/DispatchAck.lean ====
section
/-! DEFINITION. Dispatch of a closed frame and generation of ACK-only frames (44_dispatch_ack.md). -/

namespace Sys2Proof.Machine

/-- `SendAck` (44 R260). -/
def State.sendAck (s : State) : State :=
  ((s.resetTxCrc.emitDelimiter).txByte (ackControl s.rxSeq s.txSeq)).endFrame

/-- The state in which a received data frame is judged: after its piggybacked ACK, where the instance processes it
(44 R259). -/
def State.afterPiggyback (s : State) (ctrl : Byte) : State :=
  if s.params.piggybackOnData then s.ackUpto (piggyback ctrl) else s

/-- A CRC-valid data frame of 3 or more bytes: in order (44 R256) or out of order (44 R257). -/
def State.dataFrame (s : State) (ctrl : Byte) : State :=
  let s₁ := s.afterPiggyback ctrl
  if senderSeq ctrl = s₁.rxSeq then
    (({ s₁ with rxSeq := seqAdd s₁.rxSeq 1 }).output (.deliver s₁.framePayload)).sendAck
  else s₁.sendAck

/-- `Dispatch` (44 R250): drop (R251, R252), short frame (R253), data frame, ACK-only frame (R258). -/
def State.dispatch (s : State) : Except Raised State :=
  if s.rxOvf then .ok s
  else if s.rxCrc ≠ 0 then .ok s
  else if s.rxLen = 2 then
    match s.params.shortFramePolicy with
    | .fault => .error ⟨.shortFrame, 0⟩
    | .drop => .ok s
  else if isData s.frameControl then .ok (s.dataFrame s.frameControl)
  else .ok (s.ackUpto (piggyback s.frameControl))

end Sys2Proof.Machine
end

