-- ==== Sys2Proof/Machine/RxAssembler.lean ====
section
/-! DEFINITION. The RX frame assembler (43_rx_assembler.md): FEED. -/

namespace Sys2Proof.Machine

/-- `StartFrame` (43 R221). The old bytes of `RXBUF` stay. -/
def State.startFrame (s : State) : State :=
  { s with frameState := .inFrame, rxCrc := Config.crcInit, rxLen := 0, rxOvf := false }

/-- `OutsideByte(b)` (43 R222). -/
def State.outsideByte (s : State) (b : Byte) : Except Raised State :=
  match s.params.outsidePolicy with
  | .fatal => .error ⟨.outsideFrameByte, b⟩
  | .resync => .ok s

/-- `RxAppend(v)` (43 R227): the CRC is updated for a dropped byte too. -/
def State.rxAppend (s : State) (v : Byte) : Except Raised State :=
  if s.rxLen < s.params.rxBufSize then
    .ok (({ s with rxBuf := s.rxBuf.write s.rxLen v, rxLen := s.rxLen + 1 }).updateRxCrc v)
  else
    match s.params.rxOverflowPolicy with
    | .fault => .error ⟨.rxBufferOverflow, 0⟩
    | .drop => .ok (({ s with rxOvf := true }).updateRxCrc v)

/-- `CloseFrame` (43 R228): fewer than 2 bytes and no overflow is a spurious frame, ignored. -/
def State.closeFrame (s : State) : Except Raised State :=
  if s.rxLen < 2 ∧ s.rxOvf = false then .ok s else s.dispatch

/-- FEED's transition (43 R220, R230). -/
def State.feedByte (s : State) (b : Byte) : Except Raised State :=
  match s.frameState with
  | .outsideFrame => if b = s.params.frameByte then .ok s.startFrame else s.outsideByte b
  | .inFrame =>
    if b = s.params.frameByte then s.closeFrame.map State.startFrame
    else if b = s.params.escapeByte then .ok { s with frameState := .inFrameEscaped }
    else s.rxAppend b
  | .inFrameEscaped =>
    (s.rxAppend (unescape s.params b)).map fun t => { t with frameState := .inFrame }

/-- FEED. -/
def execFeed (b : Byte) (s : State) : Host.Outcome State Fault Refusal :=
  s.perform fun s => s.feedByte b

end Sys2Proof.Machine
end

