-- ==== Sys2Proof/Machine/TxWindow.lean ====
section
/-! DEFINITION. The TX window manager (42_tx_window.md): START, APPEND, FINISH, AVAIL. -/

namespace Sys2Proof.Machine

/-- START (42 R180), its checks in the rule's order (60 R324). -/
def State.startPacket (s : State) : Except Raised State :=
  let i := s.slotOf s.txSeq
  if s.txOpen then .error ⟨.packetAlreadyOpen, 0⟩
  else if s.outstanding = s.params.window.size then .error ⟨.windowOverrun, 0⟩
  else
    let s₁ := ((s.setStatus i .preparing).resetTxCrc).emitDelimiter
    .ok ((s₁.txByte (dataControl s.rxSeq s.txSeq)).setLen i 0)

/-- APPEND (42 R185, R186). `SLOT_LEN[i]` lies in 0..`MAX_PAYLOAD` (10 R30), so "not below" is the rule's `=`; log 10. -/
def State.appendByte (s : State) (b : Byte) : Except Raised State :=
  let i := s.slotOf s.txSeq
  let n := (s.slot i).len
  if ¬ s.txOpen then .error ⟨.noOpenPacket, 0⟩
  else if ¬ n < s.params.maxPayload then .error ⟨.txPayloadOverflow, 0⟩
  else .ok (((s.writePayload i n b).setLen i (n + 1)).txByte b)

/-- FINISH (42 R189). -/
def State.finishPacket (s : State) : Except Raised State :=
  let i := s.slotOf s.txSeq
  if ¬ s.txOpen then .error ⟨.noOpenPacket, 0⟩
  else
    let s₁ := (s.endFrame.setStatus i .sent).setTime i s.now
    let s₂ := { s₁ with txSeq := seqAdd s.txSeq 1 }
    .ok (if s.timerArmed then s₂ else s₂.armTimer s.params.ackDelay)

/-- START. -/
def execStart (s : State) : Host.Outcome State Fault Refusal :=
  s.perform State.startPacket

/-- APPEND. -/
def execAppend (b : Byte) (s : State) : Host.Outcome State Fault Refusal :=
  s.perform fun s => s.appendByte b

/-- FINISH. -/
def execFinish (s : State) : Host.Outcome State Fault Refusal :=
  s.perform State.finishPacket

/-- AVAIL (42 R193): the answer is an event; no register changes. -/
def execAvail (s : State) : Host.Outcome State Fault Refusal :=
  s.perform fun s => .ok (s.output (.avail s.available))

end Sys2Proof.Machine
end

