-- ==== Sys2Proof/Machine/Dispatch.lean ====
section
/-! DEFINITION. One arm per command of the opcode map (30 R102). -/

namespace Sys2Proof.Machine

def exec (i : Instr) (s : State) : Host.Outcome State Fault Refusal :=
  match i with
  | .init => Sys2Proof.Machine.execInit s
  | .feed b => Sys2Proof.Machine.execFeed b s
  | .start => Sys2Proof.Machine.execStart s
  | .append b => Sys2Proof.Machine.execAppend b s
  | .finish => Sys2Proof.Machine.execFinish s
  | .avail => Sys2Proof.Machine.execAvail s
  | .tick => Sys2Proof.Machine.execTick s

end Sys2Proof.Machine
end

