-- ==== Sys2Proof/WellFormed.lean ====
section
/-! DEFINITION. What the spec requires of an instantiation (00 R12 to R15), of a command word (30 R103) and of a command line
(30 R113, R114). An `Instr` needs no check of its own: its only operand is a byte, and every byte is legal (30 R101). -/

namespace Sys2Proof

/-- R14: the constraints under which the escape encoding round-trips. -/
abbrev Params.escapeLegal (P : Params) : Prop :=
  P.frameByte ≠ P.escapeByte ∧ P.escapeMask ≠ 0
    ∧ P.frameByte ^^^ P.escapeMask ≠ P.frameByte ∧ P.frameByte ^^^ P.escapeMask ≠ P.escapeByte
    ∧ P.escapeByte ^^^ P.escapeMask ≠ P.frameByte ∧ P.escapeByte ^^^ P.escapeMask ≠ P.escapeByte

/-- R12 and R15: the sizes of the two kinds of buffer. -/
abbrev Params.sizesLegal (P : Params) : Prop :=
  1 ≤ P.maxPayload ∧ 3 ≤ P.rxBufSize ∧ P.maxPayload + 3 ≤ P.rxBufSize

/-- R12: `ACK_DELAY` is 1 .. 2^31 − 1. -/
abbrev Params.ackDelayLegal (P : Params) : Prop :=
  1 ≤ P.ackDelay.toNat ∧ P.ackDelay.toNat ≤ 2 ^ 31 - 1

/-- What R12 to R15 require of an instantiation. R13 is in the type `WindowSize`, the laws of R143 in `CrcUpdate`. -/
abbrev Params.wellFormed (P : Params) : Prop :=
  P.escapeLegal ∧ P.sizesLegal ∧ P.ackDelayLegal

/-- R103: the legal command words, by the rule's own enumeration (the decoder is written apart from it). -/
abbrev CmdWord.legal (w : CmdWord) : Prop :=
  w.extractLsb' 8 8 ∈ [0x02#8, 0x04#8]
    ∨ (w.extractLsb' 8 8 ∈ [0x01#8, 0x03#8, 0x05#8, 0x06#8, 0x07#8] ∧ w.extractLsb' 0 8 = 0x00#8)

/-- R16, R113: a time prefix is a 32-bit millisecond count. -/
abbrev Line.timeLegal (l : Line) : Prop :=
  l.time.getD 0 < 2 ^ 32

/-- R114: a pseudo-command names at least one byte. -/
abbrev LineBody.bytesLegal : LineBody → Prop
  | .command _ => True
  | .feeds bs | .appends bs | .send bs => bs.length ≠ 0

/-- A command line as R113 and R114 write it. -/
abbrev Line.wellFormed (l : Line) : Prop :=
  l.timeLegal ∧ l.body.bytesLegal

end Sys2Proof
end

