-- ==== Sys2Proof/Decode.lean ====
section
/-! DEFINITION. Decoding and encoding of the 16-bit command word (30 R100 to R103). -/

namespace Sys2Proof

/-- The field `OPC`, bits [15:8] (R100). -/
def opcField (w : CmdWord) : Byte := w.extractLsb' 8 8

/-- The field `OPD`, bits [7:0] (R100). -/
def opdField (w : CmdWord) : Byte := w.extractLsb' 0 8

/-- A no-operand command: legal only with `OPD = 0x00` (R103). -/
def decodeNoOperand (w : CmdWord) (i : Instr) : Except DecodeError Instr :=
  if opdField w = 0 then .ok i else .error (.operandNotZero (opcField w) (opdField w))

/-- R103: decoding is a total function of the word; every word outside the opcode map of R102 is rejected by name. -/
def decode (w : CmdWord) : Except DecodeError Instr :=
  match (opcField w).toNat with
  | 0x01 => decodeNoOperand w .init
  | 0x02 => .ok (.feed (opdField w))
  | 0x03 => decodeNoOperand w .start
  | 0x04 => .ok (.append (opdField w))
  | 0x05 => decodeNoOperand w .finish
  | 0x06 => decodeNoOperand w .avail
  | 0x07 => decodeNoOperand w .tick
  | _ => .error (.opcodeOutsideMap (opcField w))

/-- The opcode map of R102. -/
def Instr.opcode : Instr → Byte
  | .init => 0x01
  | .feed _ => 0x02
  | .start => 0x03
  | .append _ => 0x04
  | .finish => 0x05
  | .avail => 0x06
  | .tick => 0x07

/-- The operand byte `OPD`: 0x00 where the command has none (R100). -/
def Instr.operand : Instr → Byte
  | .feed b => b
  | .append b => b
  | .init | .start | .finish | .avail | .tick => 0

/-- The command word of an instruction: `OPC` in the high byte, `OPD` in the low byte (R100). -/
def encode (i : Instr) : CmdWord := i.opcode ++ i.operand

/-- The instruction the decoder reads from a word whose bits are numbered as spec/opcode_table.json numbers them. A command
is one 16-bit word (R100), so no byte order enters. -/
def decodeTableWord (nbits w : Nat) : Option Instr :=
  (decode (BitVec.ofNat 16 (w % 2 ^ nbits))).toOption

end Sys2Proof
end

