-- ==== Sys2Proof/Machine/Port.lean ====
section
/-! DEFINITION. The command port (00 R3, 30 R100): taking the next word with its time sample, an illegal word (30 R103), and an
idle port. -/

namespace Sys2Proof.Machine

/-- The offer leaves the port and its `now` is sampled (00 R23): what every step does before the command itself. -/
def State.acceptRequest (s : State) (r : Request) (rest : List Request) : State :=
  { s with port := rest, now := r.now }

/-- The next word of the port, decoded, with the state in which its command runs; `none` where no word waits. -/
def State.fetch (s : State) : Option (Except DecodeError Instr × State) :=
  match s.port with
  | [] => none
  | r :: rest => some (decode r.word, s.acceptRequest r rest)

/-- The `OPC` field of the rejected word. -/
def rejectedOpcode : DecodeError → Byte
  | .opcodeOutsideMap opc => opc
  | .operandNotZero opc _ => opc

/-- An illegal word raises `Fault(ILLEGAL_COMMAND, OPC)` and changes nothing else (30 R103); in the fault state it is not taken
(30 R104). -/
def rejectWord (e : DecodeError) (s : State) : Host.Outcome State Fault Refusal :=
  s.perform fun _ => .error ⟨.illegalCommand, rejectedOpcode e⟩

/-- With no word at the port the block "is idle and keeps all state" (60 R332, 70 R351). DEDUCED, log 6: an idle step answers
the same state. Safe. -/
def idleStep (s : State) : Host.Outcome State Fault Refusal := .next s

/-- The state in which `w` is the next word at the port, offered at the time the time input shows. -/
def State.offer (s : State) (w : CmdWord) : State :=
  { s with port := ⟨w, s.now⟩ :: s.port }

end Sys2Proof.Machine
end

