-- ==== Sys2Proof/Machine/Step.lean ====
section
/-! DEFINITION. One step: the port takes its next word and the command runs to completion (00 R23, 10 R50). -/

namespace Sys2Proof.Machine

/-- One step of the block. -/
def step (s : State) : Host.Outcome State Fault Refusal :=
  match s.fetch with
  | none => idleStep s
  | some (.ok i, t) => exec i t
  | some (.error e, t) => rejectWord e t

/-- `s` with the word of the `nbits`-bit number `w` as the next word at the command port (log 6): the block runs no stored
program (10 R50), so nothing else is to be loaded. -/
def State.withFetchWord (s : State) (nbits w : Nat) : State :=
  s.offer (BitVec.ofNat 16 (w % 2 ^ nbits))

end Sys2Proof.Machine
end

