-- ==== Sys2Proof/Machine/Debug.lean ====
section
/-! DEFINITION. The read-only debug read-out of the registers by number (10 R30, R56), with the encodings of the two
enumerated registers (10 R34, R42). No command reaches it. -/

namespace Sys2Proof.Machine

/-- The encoding of `FRAME_STATE` (10 R34). -/
def FrameState.code : FrameState → Nat
  | .outsideFrame => 0
  | .inFrame => 1
  | .inFrameEscaped => 2

/-- The encoding of `SLOT_STATUS[i]` (10 R42). -/
def SlotStatus.code : SlotStatus → Nat
  | .none => 0
  | .preparing => 1
  | .sent => 2

/-- The slot register number `base + i`, for `i < W`; there are four numbers a kind (10 R30). -/
def State.debugSlot (s : State) (base n : Nat) (f : Slot → Nat) : Option Nat :=
  if n - base < s.params.window.size then some (f (s.slot (n - base))) else none

/-- The value of register number `r` (10 R30); `none` where the table has no such register. Reading changes nothing: the
read-out is a function of the state (10 R56). -/
def State.debugRead (s : State) (r : Byte) : Option Nat :=
  match r.toNat with
  | 0x00 => some s.txSeq.toNat
  | 0x01 => some s.rxSeq.toNat
  | 0x02 => some s.ackSeq.toNat
  | 0x03 => some s.frameState.code
  | 0x04 => some s.rxCrc.toNat
  | 0x05 => some s.txCrc.toNat
  | 0x06 => some s.rxLen
  | 0x07 => some s.rxOvf.toNat
  | 0x08 => some s.timerArmed.toNat
  | 0x09 => some s.faultCode.toNat
  | 0x0A => some s.faultInfo.toNat
  | 0x10 | 0x11 | 0x12 | 0x13 => s.debugSlot 0x10 r.toNat fun sl => sl.status.code
  | 0x14 | 0x15 | 0x16 | 0x17 => s.debugSlot 0x14 r.toNat fun sl => sl.len
  | 0x18 | 0x19 | 0x1A | 0x1B => s.debugSlot 0x18 r.toNat fun sl => sl.time.toNat
  | _ => none

/-- "A write through it is not defined: a model refuses it" (10 R56). -/
def State.debugWrite (_s : State) (r : Byte) (_value : Nat) : Host.Outcome State Fault Refusal :=
  .refused (.debugWriteUndefined r)

end Sys2Proof.Machine
end

