-- ==== Sys2Proof/Machine/Assembly.lean ====
section
/-! DEFINITION. The pseudo-commands (30 R114), the times of command lines and the textual syntax of commands and events
(30 R113, R115). -/

namespace Sys2Proof.Machine

/-! ### Pseudo-commands -/

/-- `FEEDS b0 … bk` (R114): the source's `feed_bytes` (43 R229). -/
def feeds (bytes : List Byte) : List Instr := bytes.map .feed

/-- `APPENDS b0 … bk` (R114): the source's `append_buf` (42 R187). -/
def appends (bytes : List Byte) : List Instr := bytes.map .append

/-- `SEND b0 … bk` (R114). -/
def send (bytes : List Byte) : List Instr := .start :: (appends bytes ++ [.finish])

/-- The plain commands a line expands to. -/
def expand : LineBody → List Instr
  | .command i => [i]
  | .feeds bytes => feeds bytes
  | .appends bytes => appends bytes
  | .send bytes => send bytes

/-- Run commands one after another with no other command between them, at one time sample. Other agents' commands may run
between the commands of a pseudo-command (70 R362); then the run is another list. -/
def execAll : List Instr → State → Host.Outcome State Fault Refusal
  | [], s => .next s
  | i :: rest, s =>
    match exec i s with
    | .next t => execAll rest t
    | .fault f => .fault f
    | .refused r => .refused r

/-! ### Command lines -/

/-- The requests of command lines, in order. A line without `@t` uses the last time given, `t` at first (R113: 0). -/
def assemble (t : Time) : List Line → List Request
  | [] => []
  | l :: rest =>
    let t' := match l.time with
      | some n => BitVec.ofNat 32 n
      | none => t
    ((expand l.body).map fun i => ⟨encode i, t'⟩) ++ assemble t' rest

/-! ### Text -/

/-- The `n` upper-case hex digits of a value. -/
def hexDigits (n v : Nat) : List Char :=
  (List.range n).map fun k => ("0123456789ABCDEF".toList).getD (v / 16 ^ (n - 1 - k) % 16) '0'

/-- A byte as two hex digits. -/
def hexByte (b : Byte) : List Char := hexDigits 2 b.toNat

/-- A command word "written as four hex digits" (R113). -/
def wordText (w : CmdWord) : String := String.ofList (hexDigits 4 w.toNat)

/-- A command as text (R113). -/
def instrText : Instr → String
  | .init => "INIT"
  | .feed b => String.ofList ("FEED 0x".toList ++ hexByte b)
  | .start => "START"
  | .append b => String.ofList ("APPEND 0x".toList ++ hexByte b)
  | .finish => "FINISH"
  | .avail => "AVAIL"
  | .tick => "TICK"

/-- Bytes as hex digits, a space between two of them. -/
def bytesText (bs : List Byte) : List Char := List.intercalate [' '] (bs.map hexByte)

/-- An output event as text (R115). -/
def eventText : Event → String
  | .emit b => String.ofList ("E:".toList ++ hexByte b)
  | .flush => "FL"
  | .deliver p => String.ofList ("D:[".toList ++ bytesText p ++ [']'])
  | .arm d => String.ofList ("ARM:".toList ++ Nat.toDigits 10 d.toNat)
  | .cancel => "CAN"
  | .avail v => String.ofList ("AV:".toList ++ Nat.toDigits 10 v.toNat)

/-- The bytes an event stream puts on the link (60 R331: a peer's FEED stream). -/
def wireBytes (es : List Event) : List Byte :=
  es.filterMap fun e => match e with
    | .emit b => some b
    | .flush | .deliver _ | .arm _ | .cancel | .avail _ => none

end Sys2Proof.Machine
end

