-- ==== Sys2Proof/Safety.lean ====
section
/-! DEFINITION. What counts as a run of the block: the invariants (10 R49), what no rule may observe (93 U5), the environment's
duties (20 R80, 45 R296, 70 R354), and the runs whose clock keeps 70 R356. -/

namespace Sys2Proof.Machine

/-! ### The invariants of 10 R49 -/

/-- The invariants (I1) to (I5) of 10 R49, with the ranges of the counted registers (10 R30) and the canonical form and size of
the memories (20 R70, R71, R75). (I6) speaks of a history; it is a statement about steps. -/
structure State.Inv (s : State) : Prop where
  /-- The instantiation meets 00 R12 to R15. -/
  params : s.params.wellFormed
  /-- There are `W` slots (00 R13). -/
  slotCount : s.slots.length = s.params.window.size
  /-- (I1) -/
  windowBound : s.outstanding ≤ s.params.window.size
  /-- (I2) -/
  outstandingSent : ∀ k < s.outstanding, (s.slot (s.slotOf (s.outstandingSeq k))).status = .sent
  /-- (I3) -/
  openFits : s.txOpen = true → s.outstanding < s.params.window.size
    ∧ ∀ k < s.outstanding, s.slotOf (s.outstandingSeq k) ≠ s.slotOf s.txSeq
  /-- (I4) -/
  otherNone : ∀ i < s.params.window.size, (∀ k < s.outstanding, s.slotOf (s.outstandingSeq k) ≠ i)
    → ¬ (s.txOpen = true ∧ i = s.slotOf s.txSeq) → (s.slot i).status = .none
  /-- (I5) -/
  timerIff : s.timerArmed = true ↔ ∃ i < s.params.window.size, (s.slot i).status = .sent
  /-- `SLOT_LEN[i]` is 0..`MAX_PAYLOAD`. -/
  slotLen : ∀ sl ∈ s.slots, sl.len ≤ s.params.maxPayload
  /-- `SLOT[i]` is `MAX_PAYLOAD` bytes in canonical form. -/
  payloads : ∀ sl ∈ s.slots, sl.payload.wf ∧ sl.payload.within s.params.maxPayload
  /-- `RX_LEN` is 0..`RX_BUF_SIZE`. -/
  rxLen : s.rxLen ≤ s.params.rxBufSize
  /-- `RXBUF` is `RX_BUF_SIZE` bytes in canonical form. -/
  rxBuf : s.rxBuf.wf ∧ s.rxBuf.within s.params.rxBufSize
  /-- A frame that overflowed has filled the buffer (43 R228). -/
  overflowFull : s.rxOvf = true → s.rxLen = s.params.rxBufSize
  /-- `FAULT_CODE` is 0 or one of the eight codes (60 R320). -/
  faultCode : s.faultCode.toNat ≤ 8

/-! ### Bytes that no rule reads -/

/-- Two slots that differ at most in bytes at indices `≥ SLOT_LEN`. -/
def Slot.agrees (a b : Slot) : Prop :=
  a.status = b.status ∧ a.len = b.len ∧ a.time = b.time
    ∧ ∀ k < a.len, a.payload.read k = b.payload.read k

/-- Two states that differ at most in bytes no rule reads: those of `SLOT[i]` at indices `≥ SLOT_LEN[i]` and those of `RXBUF`
at indices `≥ RX_LEN` (10 R45, R46, 93 U5). The output streams are equal. -/
def State.agrees (s t : State) : Prop :=
  s = { t with slots := s.slots, rxBuf := s.rxBuf }
    ∧ List.Forall₂ Slot.agrees s.slots t.slots
    ∧ ∀ k < s.rxLen, s.rxBuf.read k = t.rxBuf.read k

/-! ### Kinds of events -/

/-- A `Deliver`. -/
def Event.isDeliver : Event → Bool
  | .deliver _ => true
  | .emit _ | .flush | .arm _ | .cancel | .avail _ => false

/-- A `Flush`: the end of one whole frame (20 R77). -/
def Event.isFlush : Event → Bool
  | .flush => true
  | .emit _ | .deliver _ | .arm _ | .cancel | .avail _ => false

/-- An `Arm`. -/
def Event.isArm : Event → Bool
  | .arm _ => true
  | .emit _ | .flush | .deliver _ | .cancel | .avail _ => false

/-- A `Cancel`. -/
def Event.isCancel : Event → Bool
  | .cancel => true
  | .emit _ | .flush | .deliver _ | .arm _ | .avail _ => false

/-- Whether the timer is armed after `es`, armed or not before them: `Arm` sets it, `Cancel` clears it (10 R39). -/
def armedAfter (before : Bool) (es : List Event) : Bool :=
  es.foldl (fun b e => if e.isArm then true else if e.isCancel then false else b) before

/-- FEED of `b` in state `s` closes a CRC-valid frame of 3 or more bytes (43 R224, 44 R250). -/
def State.closesValidFrame (s : State) (b : Byte) : Prop :=
  s.frameState = .inFrame ∧ b = s.params.frameByte ∧ 3 ≤ s.rxLen ∧ s.rxOvf = false ∧ s.rxCrc = 0

/-! ### The environment -/

/-- One command of a run as its environment sees it: the real time in milliseconds, the command, the events it emitted. -/
structure Taken where
  realTime : Nat
  instr    : Instr
  events   : List Event
  deriving DecidableEq, Repr

/-- The 32-bit sample of a real time (00 R16). -/
def sampleOf (realTime : Nat) : Time := BitVec.ofNat 32 realTime

/-- 70 R356: successive samples never go back in real time. -/
abbrev clockMonotone (times : List Nat) : Prop := times.Pairwise (· ≤ ·)

/-- 70 R356: two real times whose samples the block may compare, the stored one first. -/
abbrev comparable (stored later : Nat) : Prop := stored ≤ later ∧ later - stored < 2 ^ 32

/-- Duty T1 of the platform timer (45 R296): every `Arm(d)` is answered by a TICK no earlier than `d` milliseconds later,
unless a `Cancel` comes first. T2 and T3 ask nothing: a TICK may come at any step. -/
def timerServed (run : Nat → Taken) : Prop :=
  ∀ k d, .arm d ∈ (run k).events →
    ∃ j > k, ((run j).instr = .tick ∧ (run k).realTime + d.toNat ≤ (run j).realTime) ∨ .cancel ∈ (run j).events

/-- The commands of one agent, in their order. -/
def commandsOf (a : Agent) (is : List Instr) : List Instr := is.filter fun i => i.agent = a

/-- 20 R80: a port order is any interleaving of the agents' own orders. -/
def interleaves (is : List Instr) (own : Agent → List Instr) : Prop :=
  ∀ a, commandsOf a is = own a

/-- 70 R354: two instances that may be the ends of one link. -/
abbrev linkCompatible (P Q : Params) : Prop :=
  P.frameByte = Q.frameByte ∧ P.escapeByte = Q.escapeByte ∧ P.escapeMask = Q.escapeMask
    ∧ P.crcUpdate = Q.crcUpdate ∧ P.window = Q.window

/-- 70 R360: what the caller must know before START. -/
abbrev State.startAllowed (s : State) : Prop := s.outstanding < s.params.window.size

/-! ### Runs whose clock keeps 70 R356 -/

/-- `i`, run in state `s`, compares slot `k`'s stored time with its own sample. TICK scans the outstanding slots, oldest first,
until one is overdue (45 R284, R286). A FEED whose ACK advances looks at the slots it leaves SENT (45 R280, 44 R258, R259). -/
def State.comparesTime (s : State) (i : Instr) (k : Nat) : Prop :=
  s.faultCode = 0 ∧
    match i with
    | .tick => (s.slot k).status = .sent ∧ ∃ n < s.outstanding, s.slotOf (s.outstandingSeq n) = k
        ∧ ∀ m < n, s.overdue (s.slotOf (s.outstandingSeq m)) = false
    | .feed b => s.closesValidFrame b ∧ (isData s.frameControl = false ∨ s.params.piggybackOnData = true)
        ∧ (s.ackUpto (piggyback s.frameControl)).ackSeq ≠ s.ackSeq
        ∧ ((s.ackUpto (piggyback s.frameControl)).slot k).status = .sent
    | .init | .start | .append _ | .finish | .avail => False

/-- The slot whose `SLOT_TIME` `i`, run in state `s`, sets to its own sample: FINISH's (42 R189) or the retransmitted one's
(42 R197). INIT's 0 is no sample, and no slot is SENT then. -/
def State.stampedSlot (s : State) (i : Instr) : Option Nat :=
  if s.faultCode = 0 then
    match i with
    | .finish => if s.txOpen then some (s.slotOf s.txSeq) else none
    | .tick => s.oldestOverdue.map s.slotOf
    | .init | .feed _ | .start | .append _ | .avail => none
  else none

/-- The real times, in milliseconds, behind the 32-bit samples of a run: of every `now` it drew, in order, and of the draw that
each `SLOT_TIME[i]` was last stored from. No part of the block holds them. -/
structure Clock where
  draws  : List Nat
  stamps : List Nat
  deriving DecidableEq, Repr

/-- The real time behind `SLOT_TIME[k]`. -/
def Clock.stampOf (c : Clock) (k : Nat) : Nat := c.stamps.getD k 0

/-- `s` with the sample of `realTime` at the time input. -/
def State.sampledAt (s : State) (realTime : Nat) : State := { s with now := sampleOf realTime }

/-- The premise of 70 R356 on a draw of `now`: it does not go back, and each comparison its command makes with a stored time
spans less than 2^32 ms. -/
def Clock.admits (c : Clock) (s : State) (w : CmdWord) (realTime : Nat) : Prop :=
  clockMonotone (c.draws ++ [realTime])
    ∧ ∀ i k, decode w = .ok i → (s.sampledAt realTime).comparesTime i k → comparable (c.stampOf k) realTime

/-- The clock after the block in state `s` took the word `w` at `realTime`. -/
def Clock.afterDraw (c : Clock) (s : State) (w : CmdWord) (realTime : Nat) : Clock where
  draws := c.draws ++ [realTime]
  stamps :=
    match decode w with
    | .ok i =>
      match (s.sampledAt realTime).stampedSlot i with
      | some k => c.stamps.set k realTime
      | none => c.stamps
    | .error _ => c.stamps

/-- The runs of the block (70 R351, R353, R356, 93 U20): from power-on of a legal instance, one word after another, each with
the sample of a real time that R356 admits. The words and the times are free otherwise, so a TICK may come at any step (45 R296)
and the agents interleave in every way (20 R80). A sequence of draws that breaks R356 is no `Run`. -/
inductive Run : State → Clock → Prop where
  | powerOn (P : Params) (legal : P.wellFormed) :
      Run (State.powerOn P) { draws := [], stamps := List.replicate P.window.size 0 }
  | take {s t : State} {c : Clock} (before : Run s c) (w : CmdWord) (realTime : Nat)
      (admitted : c.admits s w realTime)
      (taken : step { s with port := [⟨w, sampleOf realTime⟩] } = .next t) :
      Run t (c.afterDraw s w realTime)

end Sys2Proof.Machine
end

