-- ==== Sys2Proof/Certificates/Slice0/Obligations.lean ====
section
/-! DEFINITION. The statements for the provers. Each docstring names the rules of spec/ it formalises, or the log entry it rests
on. They hold for every instantiation (every value of `s.params`), not for the default one only. -/

open Sys2Proof Sys2Proof.Machine

/-! ### Command words (30_encoding.md) -/

/-- R100, R102, R103: every legal word has one meaning and every command one word; no bit of either is dropped. -/
def Obligations.DecodeEncodeAgree : Prop :=
  ∀ (w : CmdWord) (i : Instr), decode w = .ok i ↔ w = encode i

/-- R103: the legal words are the enumerated ones; any other raises `ILLEGAL_COMMAND` with info `OPC` and changes nothing else
(the offer leaves the port and the time input is sampled, as for every command). -/
def Obligations.IllegalWordRaisesFault : Prop :=
  (∀ w : CmdWord, w.legal ↔ ∃ i, decode w = .ok i)
  ∧ ∀ (s : State) (w : CmdWord) (t : Time) (rest : List Request),
      s.port = ⟨w, t⟩ :: rest → s.faultCode = 0 → ¬ w.legal →
      step s = .next { s with port := rest, now := t, faultCode := 7, faultInfo := w.extractLsb' 8 8 }

/-- The words of R102 and of 95 L2.1, bit by bit: a sanity statement. -/
def Obligations.SampleWordsDecode : Prop :=
  decode 0b00000001_00000000#16 = .ok .init
  ∧ decode 0b00000010_01111110#16 = .ok (.feed 0x7E)
  ∧ decode 0b00000011_00000000#16 = .ok .start
  ∧ decode 0b00000100_01000001#16 = .ok (.append 0x41)
  ∧ decode 0b00000101_00000000#16 = .ok .finish
  ∧ decode 0b00000110_00000000#16 = .ok .avail
  ∧ decode 0b00000111_00000000#16 = .ok .tick
  ∧ decode 0b00000011_00000001#16 = .error (.operandNotZero 0x03 0x01)
  ∧ decode 0b00001000_00000000#16 = .error (.opcodeOutsideMap 0x08)

/-- R23, R79: a step takes the port's next word with its time sample and runs the command it decodes to; `withFetchWord` places
such a word. -/
def Obligations.StepRunsDecodedCommand : Prop :=
  (∀ (s : State) (r : Request) (rest : List Request) (i : Instr),
    s.port = r :: rest → decode r.word = .ok i → step s = exec i { s with port := rest, now := r.now })
  ∧ ∀ (s : State) (i : Instr), step (s.withFetchWord 16 (encode i).toNat) = exec i s

/-- R332, R351: with no word at the port the block is idle and keeps all state. The model's choice of an idle step is log 6. -/
def Obligations.IdleStepKeepsState : Prop :=
  ∀ s : State, s.port = [] → step s = .next s

/-- R104, R322: in the fault state INIT (0x0100) has its effect and no other word has any. That a word not taken leaves the port
is the model's choice, log 7. -/
def Obligations.OnlyInitLeavesFaultState : Prop :=
  ∀ (s : State) (r : Request) (rest : List Request), s.port = r :: rest → s.faultCode ≠ 0 →
    (r.word = 0x0100 → step s = exec .init { s with port := rest, now := r.now })
    ∧ (r.word ≠ 0x0100 → step s = .next { s with port := rest, now := r.now })

/-! ### Reset (70_reset_and_hazards.md) -/

/-- R350: INIT, in every state, faulted or not: every register at its reset value, memories unchanged, nothing emitted. -/
def Obligations.InitResetsRegisters : Prop :=
  encode .init = 0x0100 ∧ ∀ s : State, exec .init s = .next
    { s with
      txSeq := 0, rxSeq := 0, ackSeq := 0
      frameState := .outsideFrame
      rxCrc := 0xFFFF, txCrc := 0xFFFF
      rxLen := 0, rxOvf := false
      timerArmed := false
      faultCode := 0, faultInfo := 0
      slots := s.slots.map fun sl => { sl with status := .none, len := 0, time := 0 } }

/-- The reset values of R30's table, of an instance with any parameters, and the machine's own reset state. That nothing waits,
nothing is emitted and no byte is listed is the model's choice, log 4, log 8 and log 9. -/
def Obligations.PowerOnRegisterValues : Prop :=
  (∀ P : Params,
    (State.powerOn P).txSeq = 0 ∧ (State.powerOn P).rxSeq = 0 ∧ (State.powerOn P).ackSeq = 0
    ∧ (State.powerOn P).frameState = .outsideFrame
    ∧ (State.powerOn P).rxCrc = 0xFFFF ∧ (State.powerOn P).txCrc = 0xFFFF
    ∧ (State.powerOn P).rxLen = 0 ∧ (State.powerOn P).rxOvf = false
    ∧ (State.powerOn P).timerArmed = false
    ∧ (State.powerOn P).faultCode = 0 ∧ (State.powerOn P).faultInfo = 0
    ∧ (State.powerOn P).slots.length = P.window.size
    ∧ (∀ sl ∈ (State.powerOn P).slots, sl.status = .none ∧ sl.len = 0 ∧ sl.time = 0)
    ∧ (State.powerOn P).params = P)
  ∧ State.reset = State.powerOn Params.default

/-- R352: the reset state of every legal instance meets the invariants. -/
def Obligations.ResetMeetsInvariants : Prop :=
  (∀ P : Params, P.wellFormed →
    (State.powerOn P).Inv ∧ (State.powerOn P).frameState = .outsideFrame
    ∧ (State.powerOn P).outstanding = 0
    ∧ (∀ sl ∈ (State.powerOn P).slots, sl.status = .none)
    ∧ (State.powerOn P).timerArmed = false)
  ∧ State.reset.Inv

/-- R351: INIT gives the power-on state, but for the contents of the memories, which it leaves as they are. -/
def Obligations.InitGivesPowerOnState : Prop :=
  ∀ s : State, s.slots.length = s.params.window.size →
    ∃ t, exec .init s = .next t
      ∧ { t with
          slots := t.slots.map fun sl => { sl with payload := Memory.empty }
          rxBuf := Memory.empty
          port := [], now := 0, out := [] } = State.powerOn s.params
      ∧ (∀ j a, (t.slot j).payload.read a = (s.slot j).payload.read a)
      ∧ (∀ a, t.rxBuf.read a = s.rxBuf.read a)
      ∧ t.port = s.port ∧ t.now = s.now ∧ t.out = s.out

/-! ### The CRC engine (40_crc.md) -/

/-- R143: every `CRC_UPDATE` the model can hold has zero residue for a little-endian trailer. -/
def Obligations.CrcZeroResidue : Prop :=
  ∀ (u : CrcUpdate) (c : Crc),
    crcUpdate u (crcUpdate u c (c.extractLsb' 0 8)) (c.extractLsb' 8 8) = 0

/-- R148: the default meets (L2), agrees with the bit-serial form, and gives 0x6F91 on `123456789`. -/
def Obligations.CrcDefaultIsBitSerial : Prop :=
  (∀ c : Crc, crcUpdateDefault (crcUpdateDefault c (c.extractLsb' 0 8)) (c.extractLsb' 8 8) = 0)
  ∧ (∀ (c : Crc) (b : Byte), crcUpdateDefault c b = crcUpdateBitSerial c b)
  ∧ crcOf .standard [0x31, 0x32, 0x33, 0x34, 0x35, 0x36, 0x37, 0x38, 0x39] = 0x6F91

/-- R149: under the default the only CRC-valid body of 2 bytes is `FF FF`. -/
def Obligations.TwoByteValidBodyIsFFFF : Prop :=
  ∀ a b : Byte, crcOf .standard [a, b] = 0 ↔ a = 0xFF ∧ b = 0xFF

/-- R150: under the default, one flipped bit anywhere in a CRC-valid body is always detected. -/
def Obligations.SingleBitFlipDetected : Prop :=
  ∀ (body : List Byte) (k j : Nat), k < body.length → j < 8 → crcOf .standard body = 0 →
    crcOf .standard (body.modify k fun v => v ^^^ (1#8 <<< j)) ≠ 0

/-- R145, R146, R147: a body with its own trailer is CRC-valid at a receiver with the same `CRC_UPDATE`. -/
def Obligations.TrailerMakesFrameValid : Prop :=
  ∀ (u : CrcUpdate) (pre : List Byte),
    crcOf u (pre ++ [(crcOf u pre).extractLsb' 0 8, (crcOf u pre).extractLsb' 8 8]) = 0

/-! ### The escape codec (41_escape_codec.md) -/

/-- R165: feeding the wire bytes of any `v` to a receiver in `IN_FRAME` appends exactly `v` and leaves it in `IN_FRAME`; so
does, byte for byte, the wire form of any body that fits the buffer. -/
def Obligations.EscapeRoundTrip : Prop :=
  ∀ s : State, s.params.wellFormed → s.faultCode = 0 → s.frameState = .inFrame →
    (∀ v : Byte, s.rxLen < s.params.rxBufSize →
      execAll ((esc s.params v).map .feed) s = .next
        { s with
          rxBuf := s.rxBuf.write s.rxLen v
          rxLen := s.rxLen + 1
          rxCrc := crcUpdate s.params.crcUpdate s.rxCrc v })
    ∧ ∀ body : List Byte, s.rxLen + body.length ≤ s.params.rxBufSize →
      ∃ t, execAll (feeds (body.flatMap (esc s.params))) s = .next t
        ∧ t = { s with rxBuf := t.rxBuf, rxLen := s.rxLen + body.length, rxCrc := t.rxCrc }
        ∧ t.rxBuf.readRange s.rxLen body.length = body
        ∧ ∀ a, ¬ (s.rxLen ≤ a ∧ a < s.rxLen + body.length) → t.rxBuf.read a = s.rxBuf.read a

/-- R168: a stuffed body holds no raw delimiter, so a frame holds exactly two, at its ends. -/
def Obligations.StuffedBodyHasNoDelimiter : Prop :=
  ∀ (P : Params) (body : List Byte), P.wellFormed →
    P.frameByte ∉ body.flatMap (esc P)
    ∧ frameWire P body = [P.frameByte] ++ body.flatMap (esc P) ++ [P.frameByte]
    ∧ (frameWire P body).count P.frameByte = 2

/-- R111: a frame whose body is `n + 3` bytes long takes between `n + 5` and `2n + 8` wire bytes. -/
def Obligations.WireLengthBounds : Prop :=
  ∀ (P : Params) (body : List Byte) (n : Nat), body.length = n + 3 →
    (frameWire P body).length = 2 + (body.map fun v => (esc P v).length).sum
    ∧ n + 5 ≤ (frameWire P body).length ∧ (frameWire P body).length ≤ 2 * n + 8

/-- The encoding of a body is injective, so a receiver can read it in one way only (R111, R165). -/
def Obligations.StuffingIsInjective : Prop :=
  ∀ (P : Params) (xs ys : List Byte), P.wellFormed →
    xs.flatMap (esc P) = ys.flatMap (esc P) → xs = ys

/-! ### The TX window manager (42_tx_window.md) -/

/-- R180, R181, R182, in the order of R324: START. -/
def Obligations.StartFollowsRule : Prop :=
  encode .start = 0x0300 ∧ ∀ s : State, s.faultCode = 0 →
    ((s.slot (s.slotOf s.txSeq)).status = .preparing →
      exec .start s = .next { s with faultCode := 3, faultInfo := 0 })
    ∧ ((s.slot (s.slotOf s.txSeq)).status ≠ .preparing → (s.txSeq - s.ackSeq).toNat = s.params.window.size →
      exec .start s = .next { s with faultCode := 2, faultInfo := 0 })
    ∧ ((s.slot (s.slotOf s.txSeq)).status ≠ .preparing → (s.txSeq - s.ackSeq).toNat ≠ s.params.window.size →
      exec .start s = .next
        { s with
          slots := s.slots.modify (s.slotOf s.txSeq) fun sl => { sl with status := .preparing, len := 0 }
          txCrc := crcUpdate s.params.crcUpdate 0xFFFF
            (0x80 ||| (s.rxSeq.setWidth 8 <<< 3) ||| s.txSeq.setWidth 8)
          out := s.out ++ (s.params.frameByte ::
            esc s.params (0x80 ||| (s.rxSeq.setWidth 8 <<< 3) ||| s.txSeq.setWidth 8)).map .emit })

/-- R185, R186: APPEND. -/
def Obligations.AppendFollowsRule : Prop :=
  ∀ (s : State) (b : Byte), s.faultCode = 0 →
    encode (.append b) = 0x0400 ||| b.setWidth 16
    ∧ ((s.slot (s.slotOf s.txSeq)).status ≠ .preparing →
      exec (.append b) s = .next { s with faultCode := 4, faultInfo := 0 })
    ∧ ((s.slot (s.slotOf s.txSeq)).status = .preparing → (s.slot (s.slotOf s.txSeq)).len = s.params.maxPayload →
      exec (.append b) s = .next { s with faultCode := 5, faultInfo := 0 })
    ∧ ((s.slot (s.slotOf s.txSeq)).status = .preparing → (s.slot (s.slotOf s.txSeq)).len < s.params.maxPayload →
      exec (.append b) s = .next
        { s with
          slots := s.slots.modify (s.slotOf s.txSeq) fun sl =>
            { sl with len := sl.len + 1, payload := sl.payload.write sl.len b }
          txCrc := crcUpdate s.params.crcUpdate s.txCrc b
          out := s.out ++ (esc s.params b).map .emit })

/-- R189, R191: FINISH. The trailer is the low byte of `TX_CRC`, then the high one (R73, R145). -/
def Obligations.FinishFollowsRule : Prop :=
  encode .finish = 0x0500 ∧ ∀ s : State, s.faultCode = 0 →
    ((s.slot (s.slotOf s.txSeq)).status ≠ .preparing →
      exec .finish s = .next { s with faultCode := 4, faultInfo := 0 })
    ∧ ((s.slot (s.slotOf s.txSeq)).status = .preparing →
      exec .finish s = .next
        { s with
          slots := s.slots.modify (s.slotOf s.txSeq) fun sl => { sl with status := .sent, time := s.now }
          txSeq := s.txSeq + 1
          timerArmed := true
          out := s.out
            ++ (esc s.params (s.txCrc.extractLsb' 0 8) ++ esc s.params (s.txCrc.extractLsb' 8 8)
                ++ [s.params.frameByte]).map .emit
            ++ [.flush]
            ++ if s.timerArmed then [] else [.arm s.params.ackDelay] })

/-- R193: AVAIL answers `((W − 1) − seq_dist(seq_add(ACK_SEQ, 1), TX_SEQ)) mod 8` and changes no register. -/
def Obligations.AvailFollowsRule : Prop :=
  encode .avail = 0x0600 ∧ ∀ s : State, s.faultCode = 0 →
    exec .avail s = .next
      { s with
        out := s.out ++ [.avail (BitVec.ofNat 8
          ((((s.params.window.size : Int) - 1) - ((s.txSeq - (s.ackSeq + 1)).toNat : Int)) % 8).toNat)] }

/-- R194: the answer is `(W − OUT) mod 8`; with (I1) it is `W − OUT`. -/
def Obligations.AvailIsFreeWindow : Prop :=
  ∀ s : State, s.faultCode = 0 →
    ∃ v : Byte, exec .avail s = .next { s with out := s.out ++ [.avail v] }
      ∧ (v.toNat : Int) = ((s.params.window.size : Int) - ((s.txSeq - s.ackSeq).toNat : Int)) % 8
      ∧ ((s.txSeq - s.ackSeq).toNat ≤ s.params.window.size →
          v.toNat + (s.txSeq - s.ackSeq).toNat = s.params.window.size)

/-- R183, and the first sentence of R195: the open packet is not counted until FINISH, which lowers the answer by one. -/
def Obligations.AvailCountsFinishedPackets : Prop :=
  ∀ s t : State, s.faultCode = 0 →
    (exec .start s = .next t → t.available = s.available)
    ∧ (exec .finish s = .next t → t.faultCode = 0 → s.outstanding < s.params.window.size →
        t.available.toNat + 1 = s.available.toNat)

/-- R360: only FINISH lowers AVAIL's answer, so a check before START stays good until the caller's own FINISH. -/
def Obligations.OnlyFinishLowersAvail : Prop :=
  ∀ (i : Instr) (s t : State), s.Inv → exec i s = .next t → i ≠ .finish →
    s.available.toNat ≤ t.available.toNat

/-- R105, R145, R180 to R189: START, APPENDs and FINISH with no command between them put one whole frame on the link and keep
its payload for resend. -/
def Obligations.SendEmitsWholeFrame : Prop :=
  ∀ (s : State) (p : List Byte), s.slots.length = s.params.window.size → s.faultCode = 0 →
    s.txOpen = false → s.outstanding ≠ s.params.window.size → p.length ≤ s.params.maxPayload →
    ∃ t, execAll (send p) s = .next t
      ∧ t.out = s.out ++ frameEvents s.params (dataControl s.rxSeq s.txSeq :: p)
          ++ (if s.timerArmed then [] else [.arm s.params.ackDelay])
      ∧ t.timerArmed = true ∧ t.txSeq = s.txSeq + 1 ∧ t.faultCode = 0
      ∧ (t.slot (s.slotOf s.txSeq)).status = .sent ∧ (t.slot (s.slotOf s.txSeq)).time = s.now
      ∧ (t.slot (s.slotOf s.txSeq)).len = p.length
      ∧ (t.slot (s.slotOf s.txSeq)).payload.readRange 0 p.length = p
      ∧ ∀ j, j ≠ s.slotOf s.txSeq → t.slot j = s.slot j

/-- R187: an APPENDS that overflows the slot leaves the bytes before the fault appended and emitted, and the later bytes are not
taken. -/
def Obligations.AppendsFaultKeepsPrefix : Prop :=
  ∀ (s : State) (p : List Byte), s.slots.length = s.params.window.size → s.faultCode = 0 →
    s.txOpen = true → (s.slot (s.slotOf s.txSeq)).len = 0 → s.params.maxPayload < p.length →
    ∃ t, execAll (appends p) s = .next t ∧ t.faultCode = 5 ∧ t.faultInfo = 0
      ∧ t.out = s.out ++ ((p.take s.params.maxPayload).flatMap (esc s.params)).map .emit
      ∧ (t.slot (s.slotOf s.txSeq)).len = s.params.maxPayload
      ∧ (t.slot (s.slotOf s.txSeq)).payload.readRange 0 s.params.maxPayload = p.take s.params.maxPayload

/-- R197, R198: a packet sent by START, APPENDs and FINISH in `s₀`, and retransmitted by a TICK in any later state `s` whose slot
still holds it: the TICK's frame equals the first one, event by event, iff `RX_SEQ` has the value it had at START. -/
def Obligations.RetransmissionByteIdentical : Prop :=
  ∀ (s₀ t₀ s : State) (p : List Byte), s₀.params.wellFormed → s₀.slots.length = s₀.params.window.size → s₀.faultCode = 0 →
    s₀.txOpen = false → s₀.outstanding ≠ s₀.params.window.size → p.length ≤ s₀.params.maxPayload →
    execAll (send p) s₀ = .next t₀ →
    s.params = s₀.params → s.faultCode = 0 → s.oldestOverdue = some s₀.txSeq →
    (s.slot (s.slotOf s₀.txSeq)).len = (t₀.slot (s₀.slotOf s₀.txSeq)).len →
    (∀ a < (t₀.slot (s₀.slotOf s₀.txSeq)).len,
      (s.slot (s.slotOf s₀.txSeq)).payload.read a = (t₀.slot (s₀.slotOf s₀.txSeq)).payload.read a) →
    ∃ t first again, exec .tick s = .next t
      ∧ t₀.out = s₀.out ++ first ++ (if s₀.timerArmed then [] else [.arm s₀.params.ackDelay])
      ∧ t.out = s.out ++ again ++ [.arm s.params.ackDelay]
      ∧ (again = first ↔ s.rxSeq = s₀.rxSeq)

/-! ### The RX frame assembler (43_rx_assembler.md) -/

/-- R222, with R221's opening transition: FEED outside a frame, under both values of `OUTSIDE_POLICY`. -/
def Obligations.FeedOutsideFrame : Prop :=
  ∀ (s : State) (b : Byte), s.faultCode = 0 → s.frameState = .outsideFrame →
    (b = s.params.frameByte →
      exec (.feed b) s = .next { s with frameState := .inFrame, rxCrc := 0xFFFF, rxLen := 0, rxOvf := false })
    ∧ (b ≠ s.params.frameByte → s.params.outsidePolicy = .fatal →
      exec (.feed b) s = .next { s with faultCode := 1, faultInfo := b })
    ∧ (b ≠ s.params.frameByte → s.params.outsidePolicy = .resync → exec (.feed b) s = .next s)

/-- R223, R226, R227: FEED of a byte other than the delimiter inside a frame, with room and without. -/
def Obligations.FeedInsideFrame : Prop :=
  ∀ (s : State) (b : Byte), s.faultCode = 0 → s.frameState = .inFrame → b ≠ s.params.frameByte →
    (b = s.params.escapeByte → exec (.feed b) s = .next { s with frameState := .inFrameEscaped })
    ∧ (b ≠ s.params.escapeByte → s.rxLen < s.params.rxBufSize →
      exec (.feed b) s = .next
        { s with
          rxBuf := s.rxBuf.write s.rxLen b
          rxLen := s.rxLen + 1
          rxCrc := crcUpdate s.params.crcUpdate s.rxCrc b })
    ∧ (b ≠ s.params.escapeByte → ¬ s.rxLen < s.params.rxBufSize → s.params.rxOverflowPolicy = .drop →
      exec (.feed b) s = .next { s with rxOvf := true, rxCrc := crcUpdate s.params.crcUpdate s.rxCrc b })
    ∧ (b ≠ s.params.escapeByte → ¬ s.rxLen < s.params.rxBufSize → s.params.rxOverflowPolicy = .fault →
      exec (.feed b) s = .next { s with faultCode := 6, faultInfo := 0 })

/-- R225, R227, R164: FEED of the byte after an escape byte, any byte, the delimiter included (R166). -/
def Obligations.FeedEscapedByte : Prop :=
  ∀ (s : State) (b : Byte), s.faultCode = 0 → s.frameState = .inFrameEscaped →
    (s.rxLen < s.params.rxBufSize →
      exec (.feed b) s = .next
        { s with
          frameState := .inFrame
          rxBuf := s.rxBuf.write s.rxLen (b ^^^ s.params.escapeMask)
          rxLen := s.rxLen + 1
          rxCrc := crcUpdate s.params.crcUpdate s.rxCrc (b ^^^ s.params.escapeMask) })
    ∧ (¬ s.rxLen < s.params.rxBufSize → s.params.rxOverflowPolicy = .drop →
      exec (.feed b) s = .next
        { s with
          frameState := .inFrame
          rxOvf := true
          rxCrc := crcUpdate s.params.crcUpdate s.rxCrc (b ^^^ s.params.escapeMask) })
    ∧ (¬ s.rxLen < s.params.rxBufSize → s.params.rxOverflowPolicy = .fault →
      exec (.feed b) s = .next { s with faultCode := 6, faultInfo := 0 })

/-- R224, R228, R251, R252, R253, R323: a closing delimiter after a spurious, overflowed, CRC-invalid or short frame only opens
the next frame; under `SHORT_FRAME_POLICY = FAULT` a valid 2-byte frame faults. -/
def Obligations.ClosingDropsBadFrame : Prop :=
  ∀ s : State, s.faultCode = 0 → s.frameState = .inFrame →
    ((s.rxOvf = true ∨ s.rxLen < 2 ∨ s.rxCrc ≠ 0 ∨ (s.rxLen = 2 ∧ s.params.shortFramePolicy = .drop)) →
      exec (.feed s.params.frameByte) s = .next
        { s with frameState := .inFrame, rxCrc := 0xFFFF, rxLen := 0, rxOvf := false })
    ∧ (s.rxOvf = false → s.rxCrc = 0 → s.rxLen = 2 → s.params.shortFramePolicy = .fault →
      exec (.feed s.params.frameByte) s = .next { s with faultCode := 8, faultInfo := 0 })

/-- R256, R257, R259, R260, R255: a closing delimiter after a CRC-valid data frame. `s₁` is the state after the piggybacked ACK,
where the instance processes it. In order: `RX_SEQ` advances, the payload is delivered, then the ACK-only frame with the new
`RX_SEQ` is sent. Out of order: the ACK-only frame with the current `RX_SEQ`. -/
def Obligations.DataFrameIsAnswered : Prop :=
  ∀ (s : State) (ctrl : Byte), s.faultCode = 0 → s.closesValidFrame s.params.frameByte →
    s.rxBuf.read 0 = ctrl → ctrl.getLsbD 7 = true →
    let s₁ := if s.params.piggybackOnData then s.ackUpto (ctrl.extractLsb' 3 3) else s
    (ctrl.extractLsb' 0 3 = s.rxSeq →
      exec (.feed s.params.frameByte) s = .next
        { s₁ with
          frameState := .inFrame, rxCrc := 0xFFFF, rxLen := 0, rxOvf := false
          rxSeq := s.rxSeq + 1
          txCrc := crcOf s.params.crcUpdate [ackControl (s.rxSeq + 1) s.txSeq]
          out := s₁.out ++ [.deliver ((List.range (s.rxLen - 3)).map fun k => s.rxBuf.read (1 + k))]
            ++ frameEvents s.params [ackControl (s.rxSeq + 1) s.txSeq] })
    ∧ (ctrl.extractLsb' 0 3 ≠ s.rxSeq →
      exec (.feed s.params.frameByte) s = .next
        { s₁ with
          frameState := .inFrame, rxCrc := 0xFFFF, rxLen := 0, rxOvf := false
          txCrc := crcOf s.params.crcUpdate [ackControl s.rxSeq s.txSeq]
          out := s₁.out ++ frameEvents s.params [ackControl s.rxSeq s.txSeq] })

/-- R258, R108: a closing delimiter after a CRC-valid ACK-only frame runs `AckUpto` on bits [5:3] and sends no reply; bits 6 and
[2:0] and any further bytes are ignored. -/
def Obligations.AckFrameRunsAckUpto : Prop :=
  ∀ (s : State) (ctrl : Byte), s.faultCode = 0 → s.closesValidFrame s.params.frameByte →
    s.rxBuf.read 0 = ctrl → ctrl.getLsbD 7 = false →
    exec (.feed s.params.frameByte) s = .next
      { s.ackUpto (ctrl.extractLsb' 3 3) with frameState := .inFrame, rxCrc := 0xFFFF, rxLen := 0, rxOvf := false }

/-! ### ACK processing and retransmission (45_ack_retransmit.md) -/

/-- R280, R281, R282: `AckUpto(p)` of a state with `W` slots. -/
def Obligations.AckUptoFollowsRule : Prop :=
  ∀ (s : State) (p : Seq), s.slots.length = s.params.window.size →
    (((p - s.ackSeq).toNat = 0 ∨ (s.txSeq - s.ackSeq).toNat < (p - s.ackSeq).toNat) → s.ackUpto p = s)
    ∧ ((p - s.ackSeq).toNat ≠ 0 → (p - s.ackSeq).toNat ≤ (s.txSeq - s.ackSeq).toNat →
      ∃ t, s.ackUpto p = t
        ∧ t = { s with slots := t.slots, ackSeq := p, timerArmed := t.timerArmed, out := t.out }
        ∧ t.slots.length = s.params.window.size
        ∧ (∀ i < s.params.window.size,
            t.slot i = { s.slot i with
              status := if ∃ k < (p - s.ackSeq).toNat, s.slotOf (s.ackSeq + BitVec.ofNat 3 k) = i then .none
                else (s.slot i).status })
        ∧ (t.timerArmed = true ↔ ∃ i < s.params.window.size, (t.slot i).status = .sent)
        ∧ ((∀ i < s.params.window.size, (t.slot i).status ≠ .sent) →
            t.out = s.out ++ if s.timerArmed then [.cancel] else [])
        ∧ ∀ i < s.params.window.size, (t.slot i).status = .sent →
            (∀ j < s.params.window.size, (t.slot j).status = .sent →
              (s.now - (t.slot j).time).toNat ≤ (s.now - (t.slot i).time).toNat) →
            t.out = s.out ++ (if s.timerArmed then [.cancel] else [])
              ++ [.arm (BitVec.ofNat 32 (s.params.ackDelay.toNat - (s.now - (t.slot i).time).toNat))])

/-- R283: `Elapsed(t) = (now − t) mod 2^32`, and it is the real elapsed time whenever that is below 2^32 ms, across the wrap of
the 32-bit count. -/
def Obligations.ElapsedIsRealTime : Prop :=
  (∀ (s : State) (t : Time), (s.elapsed t : Int) = ((s.now.toNat : Int) - (t.toNat : Int)) % 2 ^ 32)
  ∧ ∀ (s : State) (stored later : Nat), comparable stored later → s.now = sampleOf later →
      s.elapsed (sampleOf stored) = later - stored

/-- R284, R286, R287, R289: TICK. `late k` is "the `k`-th outstanding packet is overdue". -/
def Obligations.TickFollowsRule : Prop :=
  encode .tick = 0x0700 ∧ ∀ s : State, s.faultCode = 0 →
    let late := fun k => (s.slot (s.slotOf (s.ackSeq + BitVec.ofNat 3 k))).status = .sent
      ∧ (if s.params.timeoutStrict
          then s.params.ackDelay.toNat < (s.now - (s.slot (s.slotOf (s.ackSeq + BitVec.ofNat 3 k))).time).toNat
          else s.params.ackDelay.toNat ≤ (s.now - (s.slot (s.slotOf (s.ackSeq + BitVec.ofNat 3 k))).time).toNat)
    ((∀ sl ∈ s.slots, sl.status ≠ .sent) → exec .tick s = .next s)
    ∧ ((∃ sl ∈ s.slots, sl.status = .sent) → (∀ k < (s.txSeq - s.ackSeq).toNat, ¬ late k) →
      exec .tick s = .next { s with timerArmed := true, out := s.out ++ [.arm s.params.ackDelay] })
    ∧ ∀ k < (s.txSeq - s.ackSeq).toNat, late k → (∀ j < k, ¬ late j) →
      let q := s.ackSeq + BitVec.ofNat 3 k
      let frame := dataControl s.rxSeq q ::
        (List.range (s.slot (s.slotOf q)).len).map fun n => (s.slot (s.slotOf q)).payload.read n
      exec .tick s = .next
        { s with
          slots := s.slots.modify (s.slotOf q) fun sl => { sl with time := s.now }
          txCrc := crcOf s.params.crcUpdate frame
          timerArmed := true
          out := s.out ++ frameEvents s.params frame ++ [.arm s.params.ackDelay] }

/-- R284, R286, R296: a TICK at least `ACK_DELAY` after the oldest outstanding packet was sent (more than it, if
`TIMEOUT_STRICT = 1`) retransmits that packet: the block's part of "a retransmission eventually happens". -/
def Obligations.LateTickRetransmitsOldest : Prop :=
  ∀ (s : State) (stored later : Nat), s.Inv → s.faultCode = 0 → 0 < s.outstanding →
    comparable stored later → s.now = sampleOf later →
    (s.slot (s.slotOf s.ackSeq)).time = sampleOf stored →
    stored + s.params.ackDelay.toNat + (if s.params.timeoutStrict then 1 else 0) ≤ later →
    ∃ t, exec .tick s = .next t
      ∧ t.out = s.out
          ++ frameEvents s.params (dataControl s.rxSeq s.ackSeq ::
              (s.slot (s.slotOf s.ackSeq)).payload.readRange 0 (s.slot (s.slotOf s.ackSeq)).len)
          ++ [.arm s.params.ackDelay]
      ∧ (t.slot (s.slotOf s.ackSeq)).time = s.now

/-! ### Faults (60_exceptions.md) -/

/-- R321: a command that faults changes `FAULT_CODE` and `FAULT_INFO` and nothing else, and emits nothing. The second half is
the step of any word, an illegal one among them; the port and the time input are the model's own fields (log 4). -/
def Obligations.FaultEntryIsPrecise : Prop :=
  (∀ (i : Instr) (s t : State), exec i s = .next t → s.faultCode = 0 → t.faultCode ≠ 0 →
    t = { s with faultCode := t.faultCode, faultInfo := t.faultInfo })
  ∧ ∀ s t : State, step s = .next t → s.faultCode = 0 → t.faultCode ≠ 0 →
    t = { s with faultCode := t.faultCode, faultInfo := t.faultInfo, port := t.port, now := t.now }

/-- R320, R41: which command raises which code, under which condition, and what `FAULT_INFO` then holds. -/
def Obligations.FaultCodesAndInfo : Prop :=
  ∀ (i : Instr) (s t : State), exec i s = .next t → s.faultCode = 0 → t.faultCode ≠ 0 →
    (t.faultCode = 1 ∧ s.frameState = .outsideFrame ∧ s.params.outsidePolicy = .fatal
        ∧ ∃ b, i = .feed b ∧ b ≠ s.params.frameByte ∧ t.faultInfo = b)
    ∨ (t.faultInfo = 0 ∧
        ((t.faultCode = 2 ∧ i = .start ∧ s.outstanding = s.params.window.size)
        ∨ (t.faultCode = 3 ∧ i = .start ∧ s.txOpen = true)
        ∨ (t.faultCode = 4 ∧ ((∃ b, i = .append b) ∨ i = .finish) ∧ s.txOpen = false)
        ∨ (t.faultCode = 5 ∧ (∃ b, i = .append b) ∧ s.params.maxPayload ≤ (s.slot (s.slotOf s.txSeq)).len)
        ∨ (t.faultCode = 6 ∧ (∃ b, i = .feed b) ∧ s.params.rxOverflowPolicy = .fault
            ∧ s.params.rxBufSize ≤ s.rxLen)
        ∨ (t.faultCode = 8 ∧ i = .feed s.params.frameByte ∧ s.params.shortFramePolicy = .fault
            ∧ s.rxLen = 2 ∧ s.rxCrc = 0)))

/-! ### Frames: what a command leaves unchanged -/

/-- The commands of the application and the timer leave the receive path alone: `RX_SEQ`, `ACK_SEQ`, `FRAME_STATE`, `RX_CRC`,
`RX_LEN`, `RX_OVF` and every byte of `RXBUF` (10 R32 to R38). START, APPEND and FINISH change no slot but the open packet's.
Every byte of every slot reads as before, but for the one byte APPEND stores, at index `SLOT_LEN` of the open packet's slot
(10 R45). AVAIL changes no register; no other than FINISH changes `TX_SEQ`. -/
def Obligations.TransmitCommandsFrame : Prop :=
  ∀ (i : Instr) (s t : State), (i = .start ∨ (∃ b, i = .append b) ∨ i = .finish ∨ i = .avail ∨ i = .tick) →
    exec i s = .next t →
    t.rxSeq = s.rxSeq ∧ t.ackSeq = s.ackSeq ∧ t.frameState = s.frameState ∧ t.rxCrc = s.rxCrc
    ∧ t.rxLen = s.rxLen ∧ t.rxOvf = s.rxOvf
    ∧ (∀ a, t.rxBuf.read a = s.rxBuf.read a)
    ∧ t.params = s.params ∧ t.port = s.port ∧ t.now = s.now
    ∧ (i ≠ .finish → t.txSeq = s.txSeq)
    ∧ (i ≠ .finish → i ≠ .tick → t.timerArmed = s.timerArmed)
    ∧ (i = .finish ∨ i = .avail → t.txCrc = s.txCrc)
    ∧ (i = .avail ∨ i = .tick → t.faultCode = s.faultCode ∧ t.faultInfo = s.faultInfo)
    ∧ (i = .avail → t.slots = s.slots)
    ∧ (i ≠ .tick → ∀ j, j ≠ s.slotOf s.txSeq → t.slot j = s.slot j)
    ∧ (∀ j, i = .tick → (t.slot j).status = (s.slot j).status ∧ (t.slot j).len = (s.slot j).len)
    ∧ (∀ j a, ¬ ((∃ b, i = .append b) ∧ j = s.slotOf s.txSeq ∧ a = (s.slot j).len) →
        (t.slot j).payload.read a = (s.slot j).payload.read a)

/-- FEED leaves `TX_SEQ`, every slot's length, time and bytes, and every byte of `RXBUF` but the one at index `RX_LEN`, which it
stores to only where it appends a byte; outside a frame, on a closing delimiter and on an escape byte it stores nothing. A slot
status stays or becomes NONE (10 R31, R42 to R46). -/
def Obligations.FeedFrame : Prop :=
  ∀ (b : Byte) (s t : State), exec (.feed b) s = .next t →
    t.txSeq = s.txSeq ∧ t.params = s.params ∧ t.port = s.port ∧ t.now = s.now
    ∧ t.slots.length = s.slots.length
    ∧ (∀ j, (t.slot j).len = (s.slot j).len ∧ (t.slot j).time = (s.slot j).time
        ∧ ((t.slot j).status = (s.slot j).status ∨ (t.slot j).status = .none)
        ∧ ∀ a, (t.slot j).payload.read a = (s.slot j).payload.read a)
    ∧ (∀ a, a ≠ s.rxLen → t.rxBuf.read a = s.rxBuf.read a)
    ∧ ((s.frameState = .outsideFrame
          ∨ (s.frameState = .inFrame ∧ (b = s.params.frameByte ∨ b = s.params.escapeByte))) →
        ∀ a, t.rxBuf.read a = s.rxBuf.read a)
    ∧ (¬ s.closesValidFrame b →
        t.rxSeq = s.rxSeq ∧ t.ackSeq = s.ackSeq ∧ t.txCrc = s.txCrc ∧ t.timerArmed = s.timerArmed
        ∧ t.slots = s.slots ∧ t.out = s.out)

/-! ### Whole-machine rules -/

/-- R190 and R350: `TX_SEQ` changes only in FINISH, by exactly 1 modulo 8, and in INIT, to 0. -/
def Obligations.TxSeqAdvancesOnlyInFinish : Prop :=
  ∀ (i : Instr) (s t : State), exec i s = .next t → t.txSeq ≠ s.txSeq →
    (i = .finish ∧ t.txSeq = s.txSeq + 1) ∨ (i = .init ∧ t.txSeq = 0)

/-- R32, R33: besides INIT, `RX_SEQ` and `ACK_SEQ` change only in FEED; `RX_SEQ` by exactly 1 modulo 8, `ACK_SEQ` forward and
never past `TX_SEQ`. -/
def Obligations.ReceiveSequenceWriters : Prop :=
  ∀ (i : Instr) (s t : State), exec i s = .next t → i ≠ .init →
    (t.rxSeq ≠ s.rxSeq → (∃ b, i = .feed b) ∧ t.rxSeq = s.rxSeq + 1)
    ∧ (t.ackSeq ≠ s.ackSeq → (∃ b, i = .feed b) ∧ seqDist s.ackSeq t.ackSeq ≤ s.outstanding)

/-- R261: every `Deliver` advances `RX_SEQ` by 1, and nothing else but INIT moves it; one command delivers at most once. -/
def Obligations.DeliverAdvancesRxSeq : Prop :=
  ∀ (i : Instr) (s t : State), exec i s = .next t → i ≠ .init →
    ∃ es, t.out = s.out ++ es ∧ es.countP Event.isDeliver ≤ 1
      ∧ t.rxSeq = s.rxSeq + BitVec.ofNat 3 (es.countP Event.isDeliver)

/-- R262: a FEED sends exactly one whole frame where it closes a CRC-valid data frame, and none in any other case. -/
def Obligations.OneAckPerValidDataFrame : Prop :=
  ∀ (b : Byte) (s t : State), exec (.feed b) s = .next t → s.faultCode = 0 →
    ∃ es, t.out = s.out ++ es
      ∧ ((s.closesValidFrame b ∧ (s.rxBuf.read 0).getLsbD 7 = true) → es.countP Event.isFlush = 1)
      ∧ (¬ (s.closesValidFrame b ∧ (s.rxBuf.read 0).getLsbD 7 = true) →
          es.countP Event.isFlush = 0 ∧ es.countP Event.isDeliver = 0)

/-- R293: `Arm` comes from FINISH with the timer not armed, from FEED and from TICK only, at most once, with a delay of at most
`ACK_DELAY`; `Cancel` from FEED only, with the timer armed. -/
def Obligations.TimerEventPlaces : Prop :=
  ∀ (i : Instr) (s t : State), exec i s = .next t →
    ∃ es, t.out = s.out ++ es
      ∧ es.countP Event.isArm ≤ 1
      ∧ (∀ d, .arm d ∈ es → d.toNat ≤ s.params.ackDelay.toNat
          ∧ ((i = .finish ∧ s.timerArmed = false ∧ d = s.params.ackDelay)
            ∨ (i = .tick ∧ s.anySent = true ∧ d = s.params.ackDelay)
            ∨ ∃ b, i = .feed b))
      ∧ (.cancel ∈ es → (∃ b, i = .feed b) ∧ s.timerArmed = true)

/-- R39: `TIMER_ARMED` is set by an emitted `Arm` and cleared by an emitted `Cancel`, and otherwise moves only in INIT. -/
def Obligations.TimerArmedFollowsEvents : Prop :=
  ∀ (i : Instr) (s t : State), exec i s = .next t → i ≠ .init →
    ∃ es, t.out = s.out ++ es ∧ t.timerArmed = armedAfter s.timerArmed es

/-- R36, R200, R260: a FEED that closes a CRC-valid data frame sends an ACK-only frame and leaves that frame's CRC in `TX_CRC`,
whether or not a packet is open; every other FEED leaves `TX_CRC` as it was. -/
def Obligations.AckFrameResetsSharedTxCrc : Prop :=
  ∀ (b : Byte) (s t : State), exec (.feed b) s = .next t →
    ((s.faultCode = 0 ∧ s.closesValidFrame b ∧ (s.rxBuf.read 0).getLsbD 7 = true) →
      t.txCrc = crcOf s.params.crcUpdate [ackControl t.rxSeq s.txSeq])
    ∧ (¬ (s.faultCode = 0 ∧ s.closesValidFrame b ∧ (s.rxBuf.read 0).getLsbD 7 = true) → t.txCrc = s.txCrc)

/-- R231: `OUTSIDE_FRAME` is reached only by reset; so fault 1 can only come before the first delimiter. -/
def Obligations.OutsideFrameOnlyByReset : Prop :=
  ∀ (i : Instr) (s t : State), exec i s = .next t → s.frameState ≠ .outsideFrame →
    (t.frameState = .outsideFrame → i = .init)
    ∧ (s.faultCode = 0 → t.faultCode ≠ 1)

/-- R12, R81: a step changes no parameter and takes back no event. -/
def Obligations.StepKeepsParamsAndPastEvents : Prop :=
  ∀ s t : State, step s = .next t → t.params = s.params ∧ ∃ es, t.out = s.out ++ es

/-- 10 R49, (I1) to (I5), with the ranges of the registers and the canonical form of the memories: every step keeps the
invariants, whatever word stands at the port. -/
def Obligations.StepKeepsInvariants : Prop :=
  ∀ s t : State, s.Inv → step s = .next t → t.Inv

/-- 10 R45, R46, 70 R351: bytes at indices past `SLOT_LEN[i]` and `RX_LEN` are never read: two states that differ only there
step to states that differ only there and emit the same events. So nothing rests on what an unwritten byte reads as (log 9). -/
def Obligations.UnwrittenBytesUnobserved : Prop :=
  ∀ s t s' : State, s.agrees t → step s = .next s' → ∃ t', step t = .next t' ∧ s'.agrees t'

/-- R356, R283: on every run, the stored time of a SENT slot is the sample of a real time at which the run drew `now`, and each
time comparison that a command makes computes the true difference of two real times. -/
def Obligations.RunsCompareRealTimes : Prop :=
  ∀ (s : State) (c : Clock), Run s c →
    (∀ k, (s.slot k).status = .sent → c.stampOf k ∈ c.draws ∧ (s.slot k).time = sampleOf (c.stampOf k))
    ∧ ∀ (w : CmdWord) (realTime : Nat) (i : Instr) (k : Nat), c.admits s w realTime → decode w = .ok i →
        (s.sampledAt realTime).comparesTime i k →
        (s.sampledAt realTime).elapsed (s.slot k).time = realTime - c.stampOf k

/-- R147, R165, R256: the frame another block sends for payload `p`, fed byte by byte to a receiver between frames that expects
its sequence, is delivered exactly once, exactly as it was sent, and acknowledged. -/
def Obligations.SentFrameIsDelivered : Prop :=
  ∀ (s : State) (peerRx : Seq) (p : List Byte), s.params.wellFormed → s.faultCode = 0 →
    s.params.piggybackOnData = false → p.length + 3 ≤ s.params.rxBufSize →
    (s.frameState = .outsideFrame ∨ (s.frameState = .inFrame ∧ s.rxLen < 2 ∧ s.rxOvf = false)) →
    ∃ t, execAll (feeds (wireBytes (frameEvents s.params (dataControl peerRx s.rxSeq :: p)))) s = .next t
      ∧ t.out = s.out ++ [.deliver p] ++ frameEvents s.params [ackControl (s.rxSeq + 1) s.txSeq]
      ∧ t.rxSeq = s.rxSeq + 1 ∧ t.faultCode = 0 ∧ t.frameState = .inFrame ∧ t.rxLen = 0
      ∧ t.slots = s.slots ∧ t.ackSeq = s.ackSeq ∧ t.txSeq = s.txSeq

/-- R147, R258: the ACK-only frame another block sends with next expected sequence `p`, fed byte by byte to a receiver between
frames, runs `AckUpto(p)` there and answers nothing. -/
def Obligations.SentAckIsProcessed : Prop :=
  ∀ (s : State) (p peerTx : Seq), s.params.wellFormed → s.faultCode = 0 →
    (s.frameState = .outsideFrame ∨ (s.frameState = .inFrame ∧ s.rxLen < 2 ∧ s.rxOvf = false)) →
    ∃ t, execAll (feeds (wireBytes (frameEvents s.params [ackControl p peerTx]))) s = .next t
      ∧ t = { s.ackUpto p with
          frameState := .inFrame, rxCrc := 0xFFFF, rxLen := 0, rxOvf := false, rxBuf := t.rxBuf }

/-! ### The debug read-out (10 R30, R56) -/

/-- R30, R56: every register has its number, and a write is refused by name. That a number outside the table, and a slot number
from `W` on, reads nothing is the model's choice, log 12. -/
def Obligations.DebugReadOut : Prop :=
  ∀ s : State,
    s.debugRead 0x00 = some s.txSeq.toNat ∧ s.debugRead 0x01 = some s.rxSeq.toNat ∧ s.debugRead 0x02 = some s.ackSeq.toNat
    ∧ s.debugRead 0x03 = some s.frameState.code
    ∧ s.debugRead 0x04 = some s.rxCrc.toNat ∧ s.debugRead 0x05 = some s.txCrc.toNat
    ∧ s.debugRead 0x06 = some s.rxLen ∧ s.debugRead 0x07 = some s.rxOvf.toNat
    ∧ s.debugRead 0x08 = some s.timerArmed.toNat
    ∧ s.debugRead 0x09 = some s.faultCode.toNat ∧ s.debugRead 0x0A = some s.faultInfo.toNat
    ∧ (∀ i < s.params.window.size,
        s.debugRead (0x10 + BitVec.ofNat 8 i) = some (s.slot i).status.code
        ∧ s.debugRead (0x14 + BitVec.ofNat 8 i) = some (s.slot i).len
        ∧ s.debugRead (0x18 + BitVec.ofNat 8 i) = some (s.slot i).time.toNat)
    ∧ (∀ i, s.params.window.size ≤ i → i < 4 →
        s.debugRead (0x10 + BitVec.ofNat 8 i) = none ∧ s.debugRead (0x14 + BitVec.ofNat 8 i) = none
        ∧ s.debugRead (0x18 + BitVec.ofNat 8 i) = none)
    ∧ (∀ r : Byte, (0x0A < r.toNat ∧ r.toNat < 0x10) ∨ 0x1C ≤ r.toNat → s.debugRead r = none)
    ∧ (∀ (r : Byte) (v : Nat), s.debugWrite r v = .refused (.debugWriteUndefined r))
end

