-- ==== Sys2Proof/Laws/State.lean ====
section
/-! SUPPORT. One lemma per field per update of the state, so that no later proof unfolds a record update; and the named
updates that are compositions, reduced to them. -/

namespace Sys2Proof.Machine

variable (s : State)


/-! ### `State.outputs` -/

@[simp] theorem State.outputs_txSeq (es : List Event) : (s.outputs es).txSeq = s.txSeq := rfl
@[simp] theorem State.outputs_rxSeq (es : List Event) : (s.outputs es).rxSeq = s.rxSeq := rfl
@[simp] theorem State.outputs_ackSeq (es : List Event) : (s.outputs es).ackSeq = s.ackSeq := rfl
@[simp] theorem State.outputs_frameState (es : List Event) : (s.outputs es).frameState = s.frameState := rfl
@[simp] theorem State.outputs_rxCrc (es : List Event) : (s.outputs es).rxCrc = s.rxCrc := rfl
@[simp] theorem State.outputs_txCrc (es : List Event) : (s.outputs es).txCrc = s.txCrc := rfl
@[simp] theorem State.outputs_rxLen (es : List Event) : (s.outputs es).rxLen = s.rxLen := rfl
@[simp] theorem State.outputs_rxOvf (es : List Event) : (s.outputs es).rxOvf = s.rxOvf := rfl
@[simp] theorem State.outputs_timerArmed (es : List Event) : (s.outputs es).timerArmed = s.timerArmed := rfl
@[simp] theorem State.outputs_faultCode (es : List Event) : (s.outputs es).faultCode = s.faultCode := rfl
@[simp] theorem State.outputs_faultInfo (es : List Event) : (s.outputs es).faultInfo = s.faultInfo := rfl
@[simp] theorem State.outputs_slots (es : List Event) : (s.outputs es).slots = s.slots := rfl
@[simp] theorem State.outputs_rxBuf (es : List Event) : (s.outputs es).rxBuf = s.rxBuf := rfl
@[simp] theorem State.outputs_params (es : List Event) : (s.outputs es).params = s.params := rfl
@[simp] theorem State.outputs_port (es : List Event) : (s.outputs es).port = s.port := rfl
@[simp] theorem State.outputs_now (es : List Event) : (s.outputs es).now = s.now := rfl
@[simp] theorem State.outputs_out (es : List Event) : (s.outputs es).out = s.out ++ es := rfl

/-! ### `State.modifySlot` -/

@[simp] theorem State.modifySlot_txSeq (i : Nat) (f : Slot → Slot) : (s.modifySlot i f).txSeq = s.txSeq := rfl
@[simp] theorem State.modifySlot_rxSeq (i : Nat) (f : Slot → Slot) : (s.modifySlot i f).rxSeq = s.rxSeq := rfl
@[simp] theorem State.modifySlot_ackSeq (i : Nat) (f : Slot → Slot) : (s.modifySlot i f).ackSeq = s.ackSeq := rfl
@[simp] theorem State.modifySlot_frameState (i : Nat) (f : Slot → Slot) : (s.modifySlot i f).frameState = s.frameState := rfl
@[simp] theorem State.modifySlot_rxCrc (i : Nat) (f : Slot → Slot) : (s.modifySlot i f).rxCrc = s.rxCrc := rfl
@[simp] theorem State.modifySlot_txCrc (i : Nat) (f : Slot → Slot) : (s.modifySlot i f).txCrc = s.txCrc := rfl
@[simp] theorem State.modifySlot_rxLen (i : Nat) (f : Slot → Slot) : (s.modifySlot i f).rxLen = s.rxLen := rfl
@[simp] theorem State.modifySlot_rxOvf (i : Nat) (f : Slot → Slot) : (s.modifySlot i f).rxOvf = s.rxOvf := rfl
@[simp] theorem State.modifySlot_timerArmed (i : Nat) (f : Slot → Slot) : (s.modifySlot i f).timerArmed = s.timerArmed := rfl
@[simp] theorem State.modifySlot_faultCode (i : Nat) (f : Slot → Slot) : (s.modifySlot i f).faultCode = s.faultCode := rfl
@[simp] theorem State.modifySlot_faultInfo (i : Nat) (f : Slot → Slot) : (s.modifySlot i f).faultInfo = s.faultInfo := rfl
@[simp] theorem State.modifySlot_slots (i : Nat) (f : Slot → Slot) : (s.modifySlot i f).slots = s.slots.modify i f := rfl
@[simp] theorem State.modifySlot_rxBuf (i : Nat) (f : Slot → Slot) : (s.modifySlot i f).rxBuf = s.rxBuf := rfl
@[simp] theorem State.modifySlot_params (i : Nat) (f : Slot → Slot) : (s.modifySlot i f).params = s.params := rfl
@[simp] theorem State.modifySlot_port (i : Nat) (f : Slot → Slot) : (s.modifySlot i f).port = s.port := rfl
@[simp] theorem State.modifySlot_now (i : Nat) (f : Slot → Slot) : (s.modifySlot i f).now = s.now := rfl
@[simp] theorem State.modifySlot_out (i : Nat) (f : Slot → Slot) : (s.modifySlot i f).out = s.out := rfl

/-! ### `State.takeFault` -/

@[simp] theorem State.takeFault_txSeq (r : Raised) : (s.takeFault r).txSeq = s.txSeq := rfl
@[simp] theorem State.takeFault_rxSeq (r : Raised) : (s.takeFault r).rxSeq = s.rxSeq := rfl
@[simp] theorem State.takeFault_ackSeq (r : Raised) : (s.takeFault r).ackSeq = s.ackSeq := rfl
@[simp] theorem State.takeFault_frameState (r : Raised) : (s.takeFault r).frameState = s.frameState := rfl
@[simp] theorem State.takeFault_rxCrc (r : Raised) : (s.takeFault r).rxCrc = s.rxCrc := rfl
@[simp] theorem State.takeFault_txCrc (r : Raised) : (s.takeFault r).txCrc = s.txCrc := rfl
@[simp] theorem State.takeFault_rxLen (r : Raised) : (s.takeFault r).rxLen = s.rxLen := rfl
@[simp] theorem State.takeFault_rxOvf (r : Raised) : (s.takeFault r).rxOvf = s.rxOvf := rfl
@[simp] theorem State.takeFault_timerArmed (r : Raised) : (s.takeFault r).timerArmed = s.timerArmed := rfl
@[simp] theorem State.takeFault_faultCode (r : Raised) : (s.takeFault r).faultCode = r.name.code := rfl
@[simp] theorem State.takeFault_faultInfo (r : Raised) : (s.takeFault r).faultInfo = r.info := rfl
@[simp] theorem State.takeFault_slots (r : Raised) : (s.takeFault r).slots = s.slots := rfl
@[simp] theorem State.takeFault_rxBuf (r : Raised) : (s.takeFault r).rxBuf = s.rxBuf := rfl
@[simp] theorem State.takeFault_params (r : Raised) : (s.takeFault r).params = s.params := rfl
@[simp] theorem State.takeFault_port (r : Raised) : (s.takeFault r).port = s.port := rfl
@[simp] theorem State.takeFault_now (r : Raised) : (s.takeFault r).now = s.now := rfl
@[simp] theorem State.takeFault_out (r : Raised) : (s.takeFault r).out = s.out := rfl

/-! ### `State.resetRxCrc` -/

@[simp] theorem State.resetRxCrc_txSeq : s.resetRxCrc.txSeq = s.txSeq := rfl
@[simp] theorem State.resetRxCrc_rxSeq : s.resetRxCrc.rxSeq = s.rxSeq := rfl
@[simp] theorem State.resetRxCrc_ackSeq : s.resetRxCrc.ackSeq = s.ackSeq := rfl
@[simp] theorem State.resetRxCrc_frameState : s.resetRxCrc.frameState = s.frameState := rfl
@[simp] theorem State.resetRxCrc_rxCrc : s.resetRxCrc.rxCrc = Config.crcInit := rfl
@[simp] theorem State.resetRxCrc_txCrc : s.resetRxCrc.txCrc = s.txCrc := rfl
@[simp] theorem State.resetRxCrc_rxLen : s.resetRxCrc.rxLen = s.rxLen := rfl
@[simp] theorem State.resetRxCrc_rxOvf : s.resetRxCrc.rxOvf = s.rxOvf := rfl
@[simp] theorem State.resetRxCrc_timerArmed : s.resetRxCrc.timerArmed = s.timerArmed := rfl
@[simp] theorem State.resetRxCrc_faultCode : s.resetRxCrc.faultCode = s.faultCode := rfl
@[simp] theorem State.resetRxCrc_faultInfo : s.resetRxCrc.faultInfo = s.faultInfo := rfl
@[simp] theorem State.resetRxCrc_slots : s.resetRxCrc.slots = s.slots := rfl
@[simp] theorem State.resetRxCrc_rxBuf : s.resetRxCrc.rxBuf = s.rxBuf := rfl
@[simp] theorem State.resetRxCrc_params : s.resetRxCrc.params = s.params := rfl
@[simp] theorem State.resetRxCrc_port : s.resetRxCrc.port = s.port := rfl
@[simp] theorem State.resetRxCrc_now : s.resetRxCrc.now = s.now := rfl
@[simp] theorem State.resetRxCrc_out : s.resetRxCrc.out = s.out := rfl

/-! ### `State.resetTxCrc` -/

@[simp] theorem State.resetTxCrc_txSeq : s.resetTxCrc.txSeq = s.txSeq := rfl
@[simp] theorem State.resetTxCrc_rxSeq : s.resetTxCrc.rxSeq = s.rxSeq := rfl
@[simp] theorem State.resetTxCrc_ackSeq : s.resetTxCrc.ackSeq = s.ackSeq := rfl
@[simp] theorem State.resetTxCrc_frameState : s.resetTxCrc.frameState = s.frameState := rfl
@[simp] theorem State.resetTxCrc_rxCrc : s.resetTxCrc.rxCrc = s.rxCrc := rfl
@[simp] theorem State.resetTxCrc_txCrc : s.resetTxCrc.txCrc = Config.crcInit := rfl
@[simp] theorem State.resetTxCrc_rxLen : s.resetTxCrc.rxLen = s.rxLen := rfl
@[simp] theorem State.resetTxCrc_rxOvf : s.resetTxCrc.rxOvf = s.rxOvf := rfl
@[simp] theorem State.resetTxCrc_timerArmed : s.resetTxCrc.timerArmed = s.timerArmed := rfl
@[simp] theorem State.resetTxCrc_faultCode : s.resetTxCrc.faultCode = s.faultCode := rfl
@[simp] theorem State.resetTxCrc_faultInfo : s.resetTxCrc.faultInfo = s.faultInfo := rfl
@[simp] theorem State.resetTxCrc_slots : s.resetTxCrc.slots = s.slots := rfl
@[simp] theorem State.resetTxCrc_rxBuf : s.resetTxCrc.rxBuf = s.rxBuf := rfl
@[simp] theorem State.resetTxCrc_params : s.resetTxCrc.params = s.params := rfl
@[simp] theorem State.resetTxCrc_port : s.resetTxCrc.port = s.port := rfl
@[simp] theorem State.resetTxCrc_now : s.resetTxCrc.now = s.now := rfl
@[simp] theorem State.resetTxCrc_out : s.resetTxCrc.out = s.out := rfl

/-! ### `State.updateRxCrc` -/

@[simp] theorem State.updateRxCrc_txSeq (v : Byte) : (s.updateRxCrc v).txSeq = s.txSeq := rfl
@[simp] theorem State.updateRxCrc_rxSeq (v : Byte) : (s.updateRxCrc v).rxSeq = s.rxSeq := rfl
@[simp] theorem State.updateRxCrc_ackSeq (v : Byte) : (s.updateRxCrc v).ackSeq = s.ackSeq := rfl
@[simp] theorem State.updateRxCrc_frameState (v : Byte) : (s.updateRxCrc v).frameState = s.frameState := rfl
@[simp] theorem State.updateRxCrc_rxCrc (v : Byte) : (s.updateRxCrc v).rxCrc = crcUpdate s.params.crcUpdate s.rxCrc v := rfl
@[simp] theorem State.updateRxCrc_txCrc (v : Byte) : (s.updateRxCrc v).txCrc = s.txCrc := rfl
@[simp] theorem State.updateRxCrc_rxLen (v : Byte) : (s.updateRxCrc v).rxLen = s.rxLen := rfl
@[simp] theorem State.updateRxCrc_rxOvf (v : Byte) : (s.updateRxCrc v).rxOvf = s.rxOvf := rfl
@[simp] theorem State.updateRxCrc_timerArmed (v : Byte) : (s.updateRxCrc v).timerArmed = s.timerArmed := rfl
@[simp] theorem State.updateRxCrc_faultCode (v : Byte) : (s.updateRxCrc v).faultCode = s.faultCode := rfl
@[simp] theorem State.updateRxCrc_faultInfo (v : Byte) : (s.updateRxCrc v).faultInfo = s.faultInfo := rfl
@[simp] theorem State.updateRxCrc_slots (v : Byte) : (s.updateRxCrc v).slots = s.slots := rfl
@[simp] theorem State.updateRxCrc_rxBuf (v : Byte) : (s.updateRxCrc v).rxBuf = s.rxBuf := rfl
@[simp] theorem State.updateRxCrc_params (v : Byte) : (s.updateRxCrc v).params = s.params := rfl
@[simp] theorem State.updateRxCrc_port (v : Byte) : (s.updateRxCrc v).port = s.port := rfl
@[simp] theorem State.updateRxCrc_now (v : Byte) : (s.updateRxCrc v).now = s.now := rfl
@[simp] theorem State.updateRxCrc_out (v : Byte) : (s.updateRxCrc v).out = s.out := rfl

/-! ### `State.updateTxCrc` -/

@[simp] theorem State.updateTxCrc_txSeq (v : Byte) : (s.updateTxCrc v).txSeq = s.txSeq := rfl
@[simp] theorem State.updateTxCrc_rxSeq (v : Byte) : (s.updateTxCrc v).rxSeq = s.rxSeq := rfl
@[simp] theorem State.updateTxCrc_ackSeq (v : Byte) : (s.updateTxCrc v).ackSeq = s.ackSeq := rfl
@[simp] theorem State.updateTxCrc_frameState (v : Byte) : (s.updateTxCrc v).frameState = s.frameState := rfl
@[simp] theorem State.updateTxCrc_rxCrc (v : Byte) : (s.updateTxCrc v).rxCrc = s.rxCrc := rfl
@[simp] theorem State.updateTxCrc_txCrc (v : Byte) : (s.updateTxCrc v).txCrc = crcUpdate s.params.crcUpdate s.txCrc v := rfl
@[simp] theorem State.updateTxCrc_rxLen (v : Byte) : (s.updateTxCrc v).rxLen = s.rxLen := rfl
@[simp] theorem State.updateTxCrc_rxOvf (v : Byte) : (s.updateTxCrc v).rxOvf = s.rxOvf := rfl
@[simp] theorem State.updateTxCrc_timerArmed (v : Byte) : (s.updateTxCrc v).timerArmed = s.timerArmed := rfl
@[simp] theorem State.updateTxCrc_faultCode (v : Byte) : (s.updateTxCrc v).faultCode = s.faultCode := rfl
@[simp] theorem State.updateTxCrc_faultInfo (v : Byte) : (s.updateTxCrc v).faultInfo = s.faultInfo := rfl
@[simp] theorem State.updateTxCrc_slots (v : Byte) : (s.updateTxCrc v).slots = s.slots := rfl
@[simp] theorem State.updateTxCrc_rxBuf (v : Byte) : (s.updateTxCrc v).rxBuf = s.rxBuf := rfl
@[simp] theorem State.updateTxCrc_params (v : Byte) : (s.updateTxCrc v).params = s.params := rfl
@[simp] theorem State.updateTxCrc_port (v : Byte) : (s.updateTxCrc v).port = s.port := rfl
@[simp] theorem State.updateTxCrc_now (v : Byte) : (s.updateTxCrc v).now = s.now := rfl
@[simp] theorem State.updateTxCrc_out (v : Byte) : (s.updateTxCrc v).out = s.out := rfl

/-! ### `State.armTimer` -/

@[simp] theorem State.armTimer_txSeq (d : Time) : (s.armTimer d).txSeq = s.txSeq := rfl
@[simp] theorem State.armTimer_rxSeq (d : Time) : (s.armTimer d).rxSeq = s.rxSeq := rfl
@[simp] theorem State.armTimer_ackSeq (d : Time) : (s.armTimer d).ackSeq = s.ackSeq := rfl
@[simp] theorem State.armTimer_frameState (d : Time) : (s.armTimer d).frameState = s.frameState := rfl
@[simp] theorem State.armTimer_rxCrc (d : Time) : (s.armTimer d).rxCrc = s.rxCrc := rfl
@[simp] theorem State.armTimer_txCrc (d : Time) : (s.armTimer d).txCrc = s.txCrc := rfl
@[simp] theorem State.armTimer_rxLen (d : Time) : (s.armTimer d).rxLen = s.rxLen := rfl
@[simp] theorem State.armTimer_rxOvf (d : Time) : (s.armTimer d).rxOvf = s.rxOvf := rfl
@[simp] theorem State.armTimer_timerArmed (d : Time) : (s.armTimer d).timerArmed = true := rfl
@[simp] theorem State.armTimer_faultCode (d : Time) : (s.armTimer d).faultCode = s.faultCode := rfl
@[simp] theorem State.armTimer_faultInfo (d : Time) : (s.armTimer d).faultInfo = s.faultInfo := rfl
@[simp] theorem State.armTimer_slots (d : Time) : (s.armTimer d).slots = s.slots := rfl
@[simp] theorem State.armTimer_rxBuf (d : Time) : (s.armTimer d).rxBuf = s.rxBuf := rfl
@[simp] theorem State.armTimer_params (d : Time) : (s.armTimer d).params = s.params := rfl
@[simp] theorem State.armTimer_port (d : Time) : (s.armTimer d).port = s.port := rfl
@[simp] theorem State.armTimer_now (d : Time) : (s.armTimer d).now = s.now := rfl
@[simp] theorem State.armTimer_out (d : Time) : (s.armTimer d).out = s.out ++ [.arm d] := rfl

/-! ### `State.startFrame` -/

@[simp] theorem State.startFrame_txSeq : s.startFrame.txSeq = s.txSeq := rfl
@[simp] theorem State.startFrame_rxSeq : s.startFrame.rxSeq = s.rxSeq := rfl
@[simp] theorem State.startFrame_ackSeq : s.startFrame.ackSeq = s.ackSeq := rfl
@[simp] theorem State.startFrame_frameState : s.startFrame.frameState = .inFrame := rfl
@[simp] theorem State.startFrame_rxCrc : s.startFrame.rxCrc = Config.crcInit := rfl
@[simp] theorem State.startFrame_txCrc : s.startFrame.txCrc = s.txCrc := rfl
@[simp] theorem State.startFrame_rxLen : s.startFrame.rxLen = 0 := rfl
@[simp] theorem State.startFrame_rxOvf : s.startFrame.rxOvf = false := rfl
@[simp] theorem State.startFrame_timerArmed : s.startFrame.timerArmed = s.timerArmed := rfl
@[simp] theorem State.startFrame_faultCode : s.startFrame.faultCode = s.faultCode := rfl
@[simp] theorem State.startFrame_faultInfo : s.startFrame.faultInfo = s.faultInfo := rfl
@[simp] theorem State.startFrame_slots : s.startFrame.slots = s.slots := rfl
@[simp] theorem State.startFrame_rxBuf : s.startFrame.rxBuf = s.rxBuf := rfl
@[simp] theorem State.startFrame_params : s.startFrame.params = s.params := rfl
@[simp] theorem State.startFrame_port : s.startFrame.port = s.port := rfl
@[simp] theorem State.startFrame_now : s.startFrame.now = s.now := rfl
@[simp] theorem State.startFrame_out : s.startFrame.out = s.out := rfl

/-! ### `State.initialise` -/

@[simp] theorem State.initialise_txSeq : s.initialise.txSeq = 0 := rfl
@[simp] theorem State.initialise_rxSeq : s.initialise.rxSeq = 0 := rfl
@[simp] theorem State.initialise_ackSeq : s.initialise.ackSeq = 0 := rfl
@[simp] theorem State.initialise_frameState : s.initialise.frameState = .outsideFrame := rfl
@[simp] theorem State.initialise_rxCrc : s.initialise.rxCrc = Config.crcInit := rfl
@[simp] theorem State.initialise_txCrc : s.initialise.txCrc = Config.crcInit := rfl
@[simp] theorem State.initialise_rxLen : s.initialise.rxLen = 0 := rfl
@[simp] theorem State.initialise_rxOvf : s.initialise.rxOvf = false := rfl
@[simp] theorem State.initialise_timerArmed : s.initialise.timerArmed = false := rfl
@[simp] theorem State.initialise_faultCode : s.initialise.faultCode = 0 := rfl
@[simp] theorem State.initialise_faultInfo : s.initialise.faultInfo = 0 := rfl
@[simp] theorem State.initialise_slots : s.initialise.slots = s.slots.map fun sl => { sl with status := .none, len := 0, time := 0 } := rfl
@[simp] theorem State.initialise_rxBuf : s.initialise.rxBuf = s.rxBuf := rfl
@[simp] theorem State.initialise_params : s.initialise.params = s.params := rfl
@[simp] theorem State.initialise_port : s.initialise.port = s.port := rfl
@[simp] theorem State.initialise_now : s.initialise.now = s.now := rfl
@[simp] theorem State.initialise_out : s.initialise.out = s.out := rfl

/-! ### `State.acceptRequest` -/

@[simp] theorem State.acceptRequest_txSeq (r : Request) (rest : List Request) : (s.acceptRequest r rest).txSeq = s.txSeq := rfl
@[simp] theorem State.acceptRequest_rxSeq (r : Request) (rest : List Request) : (s.acceptRequest r rest).rxSeq = s.rxSeq := rfl
@[simp] theorem State.acceptRequest_ackSeq (r : Request) (rest : List Request) : (s.acceptRequest r rest).ackSeq = s.ackSeq := rfl
@[simp] theorem State.acceptRequest_frameState (r : Request) (rest : List Request) : (s.acceptRequest r rest).frameState = s.frameState := rfl
@[simp] theorem State.acceptRequest_rxCrc (r : Request) (rest : List Request) : (s.acceptRequest r rest).rxCrc = s.rxCrc := rfl
@[simp] theorem State.acceptRequest_txCrc (r : Request) (rest : List Request) : (s.acceptRequest r rest).txCrc = s.txCrc := rfl
@[simp] theorem State.acceptRequest_rxLen (r : Request) (rest : List Request) : (s.acceptRequest r rest).rxLen = s.rxLen := rfl
@[simp] theorem State.acceptRequest_rxOvf (r : Request) (rest : List Request) : (s.acceptRequest r rest).rxOvf = s.rxOvf := rfl
@[simp] theorem State.acceptRequest_timerArmed (r : Request) (rest : List Request) : (s.acceptRequest r rest).timerArmed = s.timerArmed := rfl
@[simp] theorem State.acceptRequest_faultCode (r : Request) (rest : List Request) : (s.acceptRequest r rest).faultCode = s.faultCode := rfl
@[simp] theorem State.acceptRequest_faultInfo (r : Request) (rest : List Request) : (s.acceptRequest r rest).faultInfo = s.faultInfo := rfl
@[simp] theorem State.acceptRequest_slots (r : Request) (rest : List Request) : (s.acceptRequest r rest).slots = s.slots := rfl
@[simp] theorem State.acceptRequest_rxBuf (r : Request) (rest : List Request) : (s.acceptRequest r rest).rxBuf = s.rxBuf := rfl
@[simp] theorem State.acceptRequest_params (r : Request) (rest : List Request) : (s.acceptRequest r rest).params = s.params := rfl
@[simp] theorem State.acceptRequest_port (r : Request) (rest : List Request) : (s.acceptRequest r rest).port = rest := rfl
@[simp] theorem State.acceptRequest_now (r : Request) (rest : List Request) : (s.acceptRequest r rest).now = r.now := rfl
@[simp] theorem State.acceptRequest_out (r : Request) (rest : List Request) : (s.acceptRequest r rest).out = s.out := rfl

/-! ### `State.offer` -/

@[simp] theorem State.offer_txSeq (w : CmdWord) : (s.offer w).txSeq = s.txSeq := rfl
@[simp] theorem State.offer_rxSeq (w : CmdWord) : (s.offer w).rxSeq = s.rxSeq := rfl
@[simp] theorem State.offer_ackSeq (w : CmdWord) : (s.offer w).ackSeq = s.ackSeq := rfl
@[simp] theorem State.offer_frameState (w : CmdWord) : (s.offer w).frameState = s.frameState := rfl
@[simp] theorem State.offer_rxCrc (w : CmdWord) : (s.offer w).rxCrc = s.rxCrc := rfl
@[simp] theorem State.offer_txCrc (w : CmdWord) : (s.offer w).txCrc = s.txCrc := rfl
@[simp] theorem State.offer_rxLen (w : CmdWord) : (s.offer w).rxLen = s.rxLen := rfl
@[simp] theorem State.offer_rxOvf (w : CmdWord) : (s.offer w).rxOvf = s.rxOvf := rfl
@[simp] theorem State.offer_timerArmed (w : CmdWord) : (s.offer w).timerArmed = s.timerArmed := rfl
@[simp] theorem State.offer_faultCode (w : CmdWord) : (s.offer w).faultCode = s.faultCode := rfl
@[simp] theorem State.offer_faultInfo (w : CmdWord) : (s.offer w).faultInfo = s.faultInfo := rfl
@[simp] theorem State.offer_slots (w : CmdWord) : (s.offer w).slots = s.slots := rfl
@[simp] theorem State.offer_rxBuf (w : CmdWord) : (s.offer w).rxBuf = s.rxBuf := rfl
@[simp] theorem State.offer_params (w : CmdWord) : (s.offer w).params = s.params := rfl
@[simp] theorem State.offer_port (w : CmdWord) : (s.offer w).port = ⟨w, s.now⟩ :: s.port := rfl
@[simp] theorem State.offer_now (w : CmdWord) : (s.offer w).now = s.now := rfl
@[simp] theorem State.offer_out (w : CmdWord) : (s.offer w).out = s.out := rfl

/-! ### Compositions -/

@[simp] theorem State.output_eq (e : Event) : s.output e = s.outputs [e] := rfl
@[simp] theorem State.setStatus_eq (i : Nat) (st : SlotStatus) :
    s.setStatus i st = s.modifySlot i fun sl => { sl with status := st } := rfl
@[simp] theorem State.setLen_eq (i n : Nat) : s.setLen i n = s.modifySlot i fun sl => { sl with len := n } := rfl
@[simp] theorem State.setTime_eq (i : Nat) (t : Time) :
    s.setTime i t = s.modifySlot i fun sl => { sl with time := t } := rfl
@[simp] theorem State.writePayload_eq (i k : Nat) (v : Byte) :
    s.writePayload i k v = s.modifySlot i fun sl => { sl with payload := sl.payload.write k v } := rfl
@[simp] theorem State.emitEsc_eq (v : Byte) : s.emitEsc v = s.outputs ((esc s.params v).map Event.emit) := rfl
@[simp] theorem State.emitDelimiter_eq : s.emitDelimiter = s.outputs [.emit s.params.frameByte] := rfl
@[simp] theorem State.txByte_eq (v : Byte) :
    s.txByte v = (s.updateTxCrc v).outputs ((esc s.params v).map Event.emit) := rfl

@[simp] theorem State.outputs_outputs (es fs : List Event) : (s.outputs es).outputs fs = s.outputs (es ++ fs) := by
  simp [State.outputs]

@[simp] theorem State.outputs_nil : s.outputs [] = s := by
  simp [State.outputs]

/-! ### Slots -/

theorem State.slot_eq_of_slots {s t : State} (h : t.slots = s.slots) (i : Nat) : t.slot i = s.slot i := by
  simp [State.slot, h]

/-- Reading a slot after changing one. -/
theorem State.slot_modifySlot (i j : Nat) (f : Slot → Slot) (hi : i < s.slots.length) :
    (s.modifySlot i f).slot j = if j = i then f (s.slot i) else s.slot j := by
  by_cases h : j = i
  · subst h
    simp [State.slot, hi]
  · simp [State.slot, h, Ne.symm h]

@[simp] theorem State.slot_modifySlot_ne {i j : Nat} (f : Slot → Slot) (h : j ≠ i) :
    (s.modifySlot i f).slot j = s.slot j := by
  simp [State.slot, Ne.symm h]

/-- The slot of a sequence value exists in an instance with `W` slots. -/
theorem slotIndex_lt (w : WindowSize) (q : Seq) : slotIndex w q < w.size := by
  cases w <;> revert q <;> decide

end Sys2Proof.Machine
end

