-- ==== Sys2Proof/Laws/Frames.lean ====
section
/-! SUPPORT. What the frame-sending operations do, said once: the bytes of a frame, its events, and the only registers they
write. -/

namespace Sys2Proof.Machine

variable (s : State)

/-! ### CRC over byte strings -/

theorem crcOf_append (u : CrcUpdate) (xs ys : List Byte) :
    crcOf u (xs ++ ys) = ys.foldl (crcUpdate u) (crcOf u xs) := by
  simp [crcOf]

theorem crcOf_singleton (u : CrcUpdate) (x : Byte) : crcOf u [x] = crcUpdate u Config.crcInit x := rfl

/-! ### Sending bytes -/

/-- `TxByte` over a byte string writes `TX_CRC` and the output stream only. -/
theorem State.txBytes_eq (vs : List Byte) :
    s.txBytes vs =
      { s with
        txCrc := vs.foldl (crcUpdate s.params.crcUpdate) s.txCrc
        out := s.out ++ (vs.flatMap (esc s.params)).map .emit } := by
  induction vs generalizing s with
  | nil => simp [State.txBytes]
  | cons v rest ih =>
    rw [State.txBytes, List.foldl_cons, ← State.txBytes, ih]
    simp [State.outputs, State.updateTxCrc]

/-- The end of a frame writes the output stream only. -/
theorem State.endFrame_eq :
    s.endFrame = s.outputs
      ((esc s.params (crcLow s.txCrc) ++ esc s.params (crcHigh s.txCrc) ++ [s.params.frameByte]).map .emit ++ [.flush]) := by
  simp [State.endFrame]

/-- A frame sent by one command: `TX_CRC` ends as the CRC of the body prefix, and the frame's events are contiguous (20 R81). -/
theorem State.wholeFrame_eq (c : Byte) (p : List Byte) :
    (((s.resetTxCrc.emitDelimiter).txByte c).txBytes p).endFrame =
      { s with
        txCrc := crcOf s.params.crcUpdate (c :: p)
        out := s.out ++ frameEvents s.params (c :: p) } := by
  rw [State.endFrame_eq, State.txBytes_eq]
  simp [State.outputs, State.updateTxCrc, State.resetTxCrc, crcOf, frameEvents, frameWire, withTrailer]

/-- `SendAck` (44 R260). -/
theorem State.sendAck_eq :
    s.sendAck =
      { s with
        txCrc := crcOf s.params.crcUpdate [ackControl s.rxSeq s.txSeq]
        out := s.out ++ frameEvents s.params [ackControl s.rxSeq s.txSeq] } := by
  have h := s.wholeFrame_eq (ackControl s.rxSeq s.txSeq) []
  simpa [State.sendAck, State.txBytes] using h

/-- `Retransmit(q)` (42 R197). -/
theorem State.retransmit_eq (q : Seq) :
    s.retransmit q =
      { s with
        txCrc := crcOf s.params.crcUpdate
          (dataControl s.rxSeq q :: (s.slot (s.slotOf q)).payload.readRange 0 (s.slot (s.slotOf q)).len)
        out := s.out ++ frameEvents s.params
          (dataControl s.rxSeq q :: (s.slot (s.slotOf q)).payload.readRange 0 (s.slot (s.slotOf q)).len)
        slots := s.slots.modify (s.slotOf q) fun sl => { sl with time := s.now } } := by
  have h := s.wholeFrame_eq (dataControl s.rxSeq q)
    ((s.slot (s.slotOf q)).payload.readRange 0 (s.slot (s.slotOf q)).len)
  simp only [State.retransmit, h, State.setTime_eq, State.modifySlot]

end Sys2Proof.Machine
end

