-- ==== Sys2Proof/Laws/AckRetransmit.lean ====
section
/-! SUPPORT. What ACK processing and the timeout scan do, said once. -/

namespace Sys2Proof.Machine

variable (s : State)

/-! ### Sequence arithmetic -/

@[simp] theorem seqAdd_zero (a : Seq) : seqAdd a 0 = a := by
  simp [seqAdd]

theorem seqDist_lt (a b : Seq) : seqDist a b < 8 := (b - a).isLt

theorem seqDist_self (a : Seq) : seqDist a a = 0 := by
  simp [seqDist]

theorem seqAdd_seqDist (a b : Seq) : seqAdd a (seqDist a b) = b := by
  simp only [seqAdd, seqDist, BitVec.ofNat_toNat, BitVec.setWidth_eq]
  rw [BitVec.add_comm, BitVec.sub_add_cancel]

/-! ### The timer -/

/-- Cancelling writes `TIMER_ARMED` and emits one `Cancel` if the timer was armed. -/
theorem State.cancelTimer_eq :
    s.cancelTimer = { s with timerArmed := false, out := s.out ++ if s.timerArmed then [.cancel] else [] } := by
  obtain h | h : s.timerArmed = true ∨ s.timerArmed = false := by cases s.timerArmed <;> simp
  · simp [State.cancelTimer, h, State.outputs]
  · rw [State.cancelTimer, if_neg (by simp [h])]
    cases s
    simp_all

/-! ### Clearing acknowledged slots -/

theorem State.clearSlots_succ (q : Seq) (n : Nat) :
    s.clearSlots q (n + 1) = (s.clearSlots q n).setStatus (s.slotOf (seqAdd q n)) .none := by
  simp only [State.clearSlots, List.range_succ, List.foldl_append, List.foldl_cons, List.foldl_nil]

/-- Clearing writes the slot array only. -/
theorem State.clearSlots_eq (q : Seq) (n : Nat) :
    s.clearSlots q n = { s with slots := (s.clearSlots q n).slots } := by
  induction n with
  | zero => rfl
  | succ n ih =>
    rw [State.clearSlots_succ, State.setStatus_eq, State.modifySlot]
    rw [ih]

theorem State.clearSlots_length (q : Seq) (n : Nat) : (s.clearSlots q n).slots.length = s.slots.length := by
  induction n with
  | zero => rfl
  | succ n ih => simpa [State.clearSlots_succ] using ih

/-- Exactly the slots of the sequences `q, …, q + n − 1` become NONE (45 R281); their lengths, times and bytes stay. -/
theorem State.clearSlots_slot (q : Seq) (n i : Nat) (hi : i < s.slots.length) :
    (s.clearSlots q n).slot i =
      if ∃ k < n, s.slotOf (seqAdd q k) = i then { s.slot i with status := .none } else s.slot i := by
  induction n with
  | zero => simp [State.clearSlots]
  | succ n ih =>
    rw [State.clearSlots_succ, State.setStatus_eq]
    by_cases hn : s.slotOf (seqAdd q n) = i
    · rw [if_pos ⟨n, by omega, hn⟩, hn, State.slot_modifySlot _ _ _ _ (by rw [State.clearSlots_length]; exact hi),
        if_pos rfl, ih]
      split <;> rfl
    · rw [State.slot_modifySlot_ne _ _ (Ne.symm hn), ih]
      have : (∃ k < n + 1, s.slotOf (seqAdd q k) = i) ↔ ∃ k < n, s.slotOf (seqAdd q k) = i :=
        ⟨fun ⟨k, hk, e⟩ => ⟨k, by
            rcases Nat.lt_succ_iff_lt_or_eq.mp hk with h | rfl
            · exact h
            · exact absurd e hn, e⟩,
          fun ⟨k, hk, e⟩ => ⟨k, by omega, e⟩⟩
      simp only [this]

/-! ### AckUpto -/

/-- A duplicate or out-of-range ACK changes nothing and emits nothing (45 R282). -/
theorem State.ackUpto_noop {p : Seq} (h : seqDist s.ackSeq p = 0 ∨ s.outstanding < seqDist s.ackSeq p) :
    s.ackUpto p = s := by
  simp [State.ackUpto, h]

/-- An advancing ACK (45 R280): the slots cleared, `ACK_SEQ` set, the timer cancelled and, if a packet is left, armed again. -/
theorem State.ackUpto_advance {p : Seq} (h₀ : seqDist s.ackSeq p ≠ 0) (h₁ : seqDist s.ackSeq p ≤ s.outstanding) :
    s.ackUpto p =
      (let c := s.clearSlots s.ackSeq (seqDist s.ackSeq p)
       { s with
         slots := c.slots
         ackSeq := p
         timerArmed := c.anySent
         out := s.out ++ (if s.timerArmed then [.cancel] else [])
           ++ if c.anySent then [.arm c.rearmDelay] else [] }) := by
  have h : ¬ (seqDist s.ackSeq p = 0 ∨ s.outstanding < seqDist s.ackSeq p) := by omega
  rw [State.ackUpto]
  simp only [h, if_false, State.cancelTimer_eq]
  rw [State.clearSlots_eq]
  by_cases ha : s.slots.any (fun sl => sl.status = .sent) <;>
  by_cases hc : (s.clearSlots s.ackSeq (seqDist s.ackSeq p)).slots.any (fun sl => sl.status = .sent) <;>
  simp [State.anySent, hc, State.armTimer, State.outputs, State.rearmDelay, State.largestElapsed, State.sentSlots,
    State.elapsed]

/-! ### The timeout scan -/

/-- The overdue test, as 45 R284 puts it. -/
theorem State.overdue_iff (i : Nat) :
    s.overdue i = true ↔ (s.slot i).status = .sent
      ∧ if s.params.timeoutStrict then s.params.ackDelay.toNat < s.elapsed (s.slot i).time
        else s.params.ackDelay.toNat ≤ s.elapsed (s.slot i).time := by
  unfold State.overdue State.timedOut
  split <;> simp

theorem State.anySent_iff : s.anySent = true ↔ ∃ sl ∈ s.slots, sl.status = .sent := by
  simp [State.anySent]

/-- Some slot is SENT, by its index. -/
theorem State.anySent_iff_slot : s.anySent = true ↔ ∃ i < s.slots.length, (s.slot i).status = .sent := by
  rw [State.anySent_iff]
  constructor
  · rintro ⟨sl, hm, h⟩
    obtain ⟨i, hi, rfl⟩ := List.getElem_of_mem hm
    exact ⟨i, hi, by simpa [State.slot, hi] using h⟩
  · rintro ⟨i, hi, h⟩
    exact ⟨s.slots[i], List.getElem_mem hi, by simpa [State.slot, hi] using h⟩

/-- The scan finds the first overdue sequence (45 R286). -/
theorem State.oldestOverdue_eq {k : Nat} (hk : k < s.outstanding)
    (h : s.overdue (s.slotOf (s.outstandingSeq k)) = true)
    (hfirst : ∀ j < k, s.overdue (s.slotOf (s.outstandingSeq j)) = false) :
    s.oldestOverdue = some (s.outstandingSeq k) := by
  have hr : List.range s.outstanding
      = List.range k ++ (List.range (s.outstanding - k)).map fun j => k + j := by
    rw [← List.range_add]
    congr 1
    omega
  have hn : (List.range (s.outstanding - k)) = 0 :: (List.range (s.outstanding - k - 1)).map Nat.succ := by
    rw [← List.range_succ_eq_map]
    congr 1
    omega
  unfold State.oldestOverdue
  rw [hr, List.map_append, List.find?_append, hn]
  have : (List.map s.outstandingSeq (List.range k)).find? (fun q => s.overdue (s.slotOf q)) = none := by
    simpa using hfirst
  simp [this, h]

theorem State.oldestOverdue_none (h : ∀ k < s.outstanding, s.overdue (s.slotOf (s.outstandingSeq k)) = false) :
    s.oldestOverdue = none := by
  simpa [State.oldestOverdue] using h

/-- What the scan answers is an outstanding, overdue sequence with no earlier one (45 R295). -/
theorem State.oldestOverdue_some {q : Seq} (h : s.oldestOverdue = some q) :
    ∃ k < s.outstanding, q = s.outstandingSeq k ∧ s.overdue (s.slotOf q) = true
      ∧ ∀ j < k, s.overdue (s.slotOf (s.outstandingSeq j)) = false := by
  by_cases hall : ∀ k < s.outstanding, s.overdue (s.slotOf (s.outstandingSeq k)) = false
  · simp [s.oldestOverdue_none hall] at h
  · have hex : ∃ k, k < s.outstanding ∧ s.overdue (s.slotOf (s.outstandingSeq k)) = true := by
      simpa using hall
    have hmin := fun j (hj : j < Nat.find hex) => Nat.find_min hex hj
    obtain ⟨hk, ho⟩ := Nat.find_spec hex
    have hfirst : ∀ j < Nat.find hex, s.overdue (s.slotOf (s.outstandingSeq j)) = false := fun j hj => by
      have := hmin j hj
      simpa [lt_trans hj hk] using this
    have := s.oldestOverdue_eq hk ho hfirst
    rw [this] at h
    obtain rfl := Option.some.inj h
    exact ⟨_, hk, rfl, ho, hfirst⟩

/-- The three cases of `CheckTimeouts` (45 R286, R287, R289). -/
theorem State.checkTimeouts_cases :
    (s.anySent = false ∧ s.checkTimeouts = s)
    ∨ (s.anySent = true ∧ s.oldestOverdue = none ∧ s.checkTimeouts = s.armTimer s.params.ackDelay)
    ∨ ∃ q, s.anySent = true ∧ s.oldestOverdue = some q
        ∧ s.checkTimeouts = (s.retransmit q).armTimer s.params.ackDelay := by
  by_cases ha : s.anySent = true
  · right
    cases ho : s.oldestOverdue with
    | none => exact .inl ⟨ha, rfl, by simp [State.checkTimeouts, ha, ho]⟩
    | some q => exact .inr ⟨q, ha, rfl, by simp [State.checkTimeouts, ha, ho, s.retransmit_eq q]⟩
  · have ha : s.anySent = false := by simpa using ha
    exact .inl ⟨ha, by simp [State.checkTimeouts, ha]⟩

end Sys2Proof.Machine
end

