-- ==== Sys2Proof/Laws/RxAssembler.lean ====
section
/-! SUPPORT. What the receive path does, said once: appending, closing, dispatching. -/

namespace Sys2Proof.Machine

variable (s : State)

/-! ### RxAppend -/

theorem State.rxAppend_fits {v : Byte} (h : s.rxLen < s.params.rxBufSize) :
    s.rxAppend v = .ok
      { s with
        rxBuf := s.rxBuf.write s.rxLen v
        rxLen := s.rxLen + 1
        rxCrc := crcUpdate s.params.crcUpdate s.rxCrc v } := by
  simp [State.rxAppend, h, State.updateRxCrc]

theorem State.rxAppend_drops {v : Byte} (h : ¬ s.rxLen < s.params.rxBufSize) (hp : s.params.rxOverflowPolicy = .drop) :
    s.rxAppend v = .ok { s with rxOvf := true, rxCrc := crcUpdate s.params.crcUpdate s.rxCrc v } := by
  simp [State.rxAppend, h, hp, State.updateRxCrc]

theorem State.rxAppend_faults {v : Byte} (h : ¬ s.rxLen < s.params.rxBufSize) (hp : s.params.rxOverflowPolicy = .fault) :
    s.rxAppend v = .error ⟨.rxBufferOverflow, 0⟩ := by
  simp [State.rxAppend, h, hp]

/-- All that `RxAppend` can do (43 R227). -/
theorem State.rxAppend_cases (v : Byte) :
    (s.rxLen < s.params.rxBufSize ∧ s.rxAppend v = .ok
        { s with
          rxBuf := s.rxBuf.write s.rxLen v
          rxLen := s.rxLen + 1
          rxCrc := crcUpdate s.params.crcUpdate s.rxCrc v })
    ∨ (¬ s.rxLen < s.params.rxBufSize ∧ s.params.rxOverflowPolicy = .drop
        ∧ s.rxAppend v = .ok { s with rxOvf := true, rxCrc := crcUpdate s.params.crcUpdate s.rxCrc v })
    ∨ (¬ s.rxLen < s.params.rxBufSize ∧ s.params.rxOverflowPolicy = .fault
        ∧ s.rxAppend v = .error ⟨.rxBufferOverflow, 0⟩) := by
  by_cases h : s.rxLen < s.params.rxBufSize
  · exact .inl ⟨h, s.rxAppend_fits h⟩
  · cases hp : s.params.rxOverflowPolicy with
    | drop => exact .inr (.inl ⟨h, rfl, s.rxAppend_drops h hp⟩)
    | fault => exact .inr (.inr ⟨h, rfl, s.rxAppend_faults h hp⟩)

/-! ### Dispatch -/

/-- `AckUpto` as the two cases of one conclusion. -/
theorem State.ackUpto_cases (p : Seq) :
    s.ackUpto p = s
    ∨ (seqDist s.ackSeq p ≠ 0 ∧ seqDist s.ackSeq p ≤ s.outstanding ∧ s.ackUpto p =
        (let c := s.clearSlots s.ackSeq (seqDist s.ackSeq p)
         { s with
           slots := c.slots
           ackSeq := p
           timerArmed := c.anySent
           out := s.out ++ (if s.timerArmed then [.cancel] else [])
             ++ if c.anySent then [.arm c.rearmDelay] else [] })) := by
  by_cases h : seqDist s.ackSeq p = 0 ∨ s.outstanding < seqDist s.ackSeq p
  · exact .inl (s.ackUpto_noop h)
  · have h₀ : seqDist s.ackSeq p ≠ 0 := fun e => h (.inl e)
    have h₁ : seqDist s.ackSeq p ≤ s.outstanding := not_lt.mp fun e => h (.inr e)
    exact .inr ⟨h₀, h₁, s.ackUpto_advance h₀ h₁⟩

/-- `AckUpto` writes the slots, `ACK_SEQ`, `TIMER_ARMED` and the output stream, and nothing else. -/
theorem State.ackUpto_eq (p : Seq) :
    s.ackUpto p =
      { s with
        slots := (s.ackUpto p).slots
        ackSeq := (s.ackUpto p).ackSeq
        timerArmed := (s.ackUpto p).timerArmed
        out := (s.ackUpto p).out } := by
  rcases s.ackUpto_cases p with h | ⟨-, -, h⟩
  · rw [h]
  · simp only [h]

theorem State.dataFrame_eq (ctrl : Byte) :
    s.dataFrame ctrl =
      if senderSeq ctrl = s.rxSeq then
        ((({ s.afterPiggyback ctrl with rxSeq := seqAdd s.rxSeq 1 } : State).outputs [.deliver s.framePayload])).sendAck
      else (s.afterPiggyback ctrl).sendAck := by
  have hr : (s.afterPiggyback ctrl).rxSeq = s.rxSeq := by
    unfold State.afterPiggyback
    split
    · rw [State.ackUpto_eq]
    · rfl
  have hp : (s.afterPiggyback ctrl).framePayload = s.framePayload := by
    unfold State.afterPiggyback
    split
    · rw [State.ackUpto_eq]
      rfl
    · rfl
  simp only [State.dataFrame, hr, hp, State.output_eq]

/-- All that `Dispatch` can do (44 R250). -/
theorem State.dispatch_cases :
    ((s.rxOvf = true ∨ s.rxCrc ≠ 0) ∧ s.dispatch = .ok s)
    ∨ (s.rxOvf = false ∧ s.rxCrc = 0 ∧ s.rxLen = 2 ∧ s.params.shortFramePolicy = .drop ∧ s.dispatch = .ok s)
    ∨ (s.rxOvf = false ∧ s.rxCrc = 0 ∧ s.rxLen = 2 ∧ s.params.shortFramePolicy = .fault
        ∧ s.dispatch = .error ⟨.shortFrame, 0⟩)
    ∨ (s.rxOvf = false ∧ s.rxCrc = 0 ∧ s.rxLen ≠ 2 ∧ isData s.frameControl = true
        ∧ s.dispatch = .ok (s.dataFrame s.frameControl))
    ∨ (s.rxOvf = false ∧ s.rxCrc = 0 ∧ s.rxLen ≠ 2 ∧ isData s.frameControl = false
        ∧ s.dispatch = .ok (s.ackUpto (piggyback s.frameControl))) := by
  by_cases ho : s.rxOvf = true
  · exact .inl ⟨.inl ho, by rw [State.dispatch, if_pos ho]⟩
  · have ho' : s.rxOvf = false := by simpa using ho
    by_cases hc : s.rxCrc = 0
    · by_cases hl : s.rxLen = 2
      · cases hp : s.params.shortFramePolicy <;> simp [State.dispatch, ho', hc, hl, hp]
      · cases hi : isData s.frameControl <;> simp [State.dispatch, ho', hc, hl, hi]
    · exact .inl ⟨.inr hc, by rw [State.dispatch, if_neg ho, if_pos hc]⟩

/-! ### CloseFrame -/

theorem State.closeFrame_ignores (h : s.rxLen < 2) (ho : s.rxOvf = false) : s.closeFrame = .ok s := by
  simp [State.closeFrame, h, ho]

theorem State.closeFrame_dispatches (h : 2 ≤ s.rxLen ∨ s.rxOvf = true) : s.closeFrame = s.dispatch := by
  have : ¬ (s.rxLen < 2 ∧ s.rxOvf = false) := by
    rintro ⟨h₁, h₂⟩
    rcases h with h | h
    · omega
    · simp [h₂] at h
  rw [State.closeFrame, if_neg this]

/-! ### FEED -/

/-- All that FEED can do, by `FRAME_STATE` and byte (43 R230). -/
theorem State.feedByte_cases (b : Byte) :
    (s.frameState = .outsideFrame ∧ b = s.params.frameByte ∧ s.feedByte b = .ok s.startFrame)
    ∨ (s.frameState = .outsideFrame ∧ b ≠ s.params.frameByte ∧ s.feedByte b = s.outsideByte b)
    ∨ (s.frameState = .inFrame ∧ b = s.params.frameByte ∧ s.feedByte b = s.closeFrame.map State.startFrame)
    ∨ (s.frameState = .inFrame ∧ b ≠ s.params.frameByte ∧ b = s.params.escapeByte
        ∧ s.feedByte b = .ok { s with frameState := .inFrameEscaped })
    ∨ (s.frameState = .inFrame ∧ b ≠ s.params.frameByte ∧ b ≠ s.params.escapeByte ∧ s.feedByte b = s.rxAppend b)
    ∨ (s.frameState = .inFrameEscaped
        ∧ s.feedByte b = (s.rxAppend (unescape s.params b)).map fun t => { t with frameState := .inFrame }) := by
  cases hf : s.frameState with
  | outsideFrame => by_cases hb : b = s.params.frameByte <;> simp [State.feedByte, hf, hb]
  | inFrame =>
    by_cases hb : b = s.params.frameByte
    · simp [State.feedByte, hf, hb]
    · by_cases he : b = s.params.escapeByte
      · by_cases hfe : s.params.escapeByte = s.params.frameByte
        · exact absurd (he.trans hfe) hb
        · simp [State.feedByte, hf, he, hfe]
      · simp [State.feedByte, hf, hb, he]
  | inFrameEscaped => simp [State.feedByte, hf]

end Sys2Proof.Machine
end

