-- ==== Sys2Proof/Laws/Feed.lean ====
section
/-! SUPPORT. FEED's next states and faults, each written out, so that a proof about FEED is a case analysis over them. -/

namespace Sys2Proof.Machine

variable (s : State)

/-- The state in which a data frame is judged differs from the one the FEED found only in what `AckUpto` writes. -/
theorem State.afterPiggyback_eq (ctrl : Byte) :
    s.afterPiggyback ctrl =
      { s with
        slots := (s.afterPiggyback ctrl).slots
        ackSeq := (s.afterPiggyback ctrl).ackSeq
        timerArmed := (s.afterPiggyback ctrl).timerArmed
        out := (s.afterPiggyback ctrl).out } := by
  unfold State.afterPiggyback
  split
  · exact s.ackUpto_eq _
  · rfl

theorem State.afterPiggyback_cases (ctrl : Byte) :
    s.afterPiggyback ctrl = s ∨ s.afterPiggyback ctrl = s.ackUpto (piggyback ctrl) := by
  unfold State.afterPiggyback
  split
  · exact .inr rfl
  · exact .inl rfl

/-- The state after an in-order data frame (44 R256), the next frame opened. -/
def State.accepted (s : State) : State :=
  let s₁ := s.afterPiggyback s.frameControl
  { s₁ with
    frameState := .inFrame, rxCrc := Config.crcInit, rxLen := 0, rxOvf := false
    rxSeq := seqAdd s.rxSeq 1
    txCrc := crcOf s.params.crcUpdate [ackControl (seqAdd s.rxSeq 1) s.txSeq]
    out := s₁.out ++ [.deliver s.framePayload] ++ frameEvents s.params [ackControl (seqAdd s.rxSeq 1) s.txSeq] }

/-- The state after an out-of-order data frame (44 R257), the next frame opened. -/
def State.reacknowledged (s : State) : State :=
  let s₁ := s.afterPiggyback s.frameControl
  { s₁ with
    frameState := .inFrame, rxCrc := Config.crcInit, rxLen := 0, rxOvf := false
    txCrc := crcOf s.params.crcUpdate [ackControl s.rxSeq s.txSeq]
    out := s₁.out ++ frameEvents s.params [ackControl s.rxSeq s.txSeq] }

theorem State.dataFrame_accepted (h : senderSeq s.frameControl = s.rxSeq) :
    (s.dataFrame s.frameControl).startFrame = s.accepted := by
  rw [State.dataFrame_eq, if_pos h, State.sendAck_eq]
  simp only [State.accepted]
  rw [State.afterPiggyback_eq]
  simp [State.startFrame]

theorem State.dataFrame_reacknowledged (h : senderSeq s.frameControl ≠ s.rxSeq) :
    (s.dataFrame s.frameControl).startFrame = s.reacknowledged := by
  rw [State.dataFrame_eq, if_neg h, State.sendAck_eq]
  simp only [State.reacknowledged]
  rw [State.afterPiggyback_eq]
  simp [State.startFrame]

/-- Where FEED goes on: every next state. -/
theorem State.feedByte_ok {b : Byte} {t : State} (h : s.feedByte b = .ok t) :
    (s.frameState = .outsideFrame ∧ b = s.params.frameByte ∧ t = s.startFrame)
    ∨ (s.frameState = .outsideFrame ∧ b ≠ s.params.frameByte ∧ s.params.outsidePolicy = .resync ∧ t = s)
    ∨ (s.frameState = .inFrame ∧ b = s.params.frameByte ∧ ¬ s.closesValidFrame b ∧ t = s.startFrame)
    ∨ (s.closesValidFrame b ∧ isData s.frameControl = true ∧ senderSeq s.frameControl = s.rxSeq ∧ t = s.accepted)
    ∨ (s.closesValidFrame b ∧ isData s.frameControl = true ∧ senderSeq s.frameControl ≠ s.rxSeq
        ∧ t = s.reacknowledged)
    ∨ (s.closesValidFrame b ∧ isData s.frameControl = false
        ∧ t = (s.ackUpto (piggyback s.frameControl)).startFrame)
    ∨ (s.frameState = .inFrame ∧ b ≠ s.params.frameByte ∧ b = s.params.escapeByte
        ∧ t = { s with frameState := .inFrameEscaped })
    ∨ ∃ v, (s.frameState = .inFrame ∧ b ≠ s.params.frameByte ∧ b ≠ s.params.escapeByte ∧ v = b
          ∨ s.frameState = .inFrameEscaped ∧ v = b ^^^ s.params.escapeMask)
        ∧ ((s.rxLen < s.params.rxBufSize ∧ t =
              { s with
                frameState := .inFrame
                rxBuf := s.rxBuf.write s.rxLen v
                rxLen := s.rxLen + 1
                rxCrc := crcUpdate s.params.crcUpdate s.rxCrc v })
          ∨ (¬ s.rxLen < s.params.rxBufSize ∧ s.params.rxOverflowPolicy = .drop ∧ t =
              { s with frameState := .inFrame, rxOvf := true, rxCrc := crcUpdate s.params.crcUpdate s.rxCrc v })) := by
  rcases s.feedByte_cases b with ⟨hs, hb, e⟩ | ⟨hs, hb, e⟩ | ⟨hs, hb, e⟩ | ⟨hs, hb, he, e⟩ | ⟨hs, hb, he, e⟩ | ⟨hs, e⟩
  · exact .inl ⟨hs, hb, by rw [e] at h; cases h; rfl⟩
  · refine .inr (.inl ⟨hs, hb, ?_⟩)
    rw [e, State.outsideByte] at h
    cases hp : s.params.outsidePolicy <;> simp_all
  · rw [e] at h
    by_cases hc : s.rxLen < 2 ∧ s.rxOvf = false
    · rw [s.closeFrame_ignores hc.1 hc.2] at h
      refine .inr (.inr (.inl ⟨hs, hb, fun hv => ?_, by cases h; rfl⟩))
      have := hv.2.2.1
      omega
    · have hc' : 2 ≤ s.rxLen ∨ s.rxOvf = true := by
        cases ho : s.rxOvf with
        | true => exact .inr rfl
        | false => exact .inl (Nat.le_of_not_lt fun hl => hc ⟨hl, ho⟩)
      rw [s.closeFrame_dispatches hc'] at h
      rcases s.dispatch_cases with ⟨hx, hd⟩ | ⟨ho, h0, hl, -, hd⟩ | ⟨-, -, -, -, hd⟩ | ⟨ho, h0, hl, hi, hd⟩
          | ⟨ho, h0, hl, hi, hd⟩ <;> rw [hd] at h
      · refine .inr (.inr (.inl ⟨hs, hb, fun hv => ?_, by cases h; rfl⟩))
        rcases hx with hx | hx
        · exact absurd hv.2.2.2.1 (by simp [hx])
        · exact hx hv.2.2.2.2
      · refine .inr (.inr (.inl ⟨hs, hb, fun hv => ?_, by cases h; rfl⟩))
        have := hv.2.2.1
        omega
      · cases h
      all_goals
        have hlen : 3 ≤ s.rxLen := by
          rcases hc' with h2 | h2
          · omega
          · rw [ho] at h2
            cases h2
        have hv : s.closesValidFrame b := ⟨hs, hb, hlen, ho, h0⟩
      · by_cases hq : senderSeq s.frameControl = s.rxSeq
        · exact .inr (.inr (.inr (.inl ⟨hv, hi, hq, by
            rw [← s.dataFrame_accepted hq]; cases h; rfl⟩)))
        · exact .inr (.inr (.inr (.inr (.inl ⟨hv, hi, hq, by
            rw [← s.dataFrame_reacknowledged hq]; cases h; rfl⟩))))
      · exact .inr (.inr (.inr (.inr (.inr (.inl ⟨hv, hi, by cases h; rfl⟩)))))
  · exact .inr (.inr (.inr (.inr (.inr (.inr (.inl ⟨hs, hb, he, by rw [e] at h; cases h; rfl⟩))))))
  · refine .inr (.inr (.inr (.inr (.inr (.inr (.inr ⟨b, .inl ⟨hs, hb, he, rfl⟩, ?_⟩))))))
    rw [e] at h
    rcases s.rxAppend_cases b with ⟨hl, hr⟩ | ⟨hl, hp, hr⟩ | ⟨-, -, hr⟩ <;> rw [hr] at h
    · exact .inl ⟨hl, by cases h; simp [hs]⟩
    · exact .inr ⟨hl, hp, by cases h; simp [hs]⟩
    · cases h
  · refine .inr (.inr (.inr (.inr (.inr (.inr (.inr ⟨_, .inr ⟨hs, rfl⟩, ?_⟩))))))
    rw [e] at h
    rcases s.rxAppend_cases (unescape s.params b) with ⟨hl, hr⟩ | ⟨hl, hp, hr⟩ | ⟨-, -, hr⟩ <;> rw [hr] at h
    · exact .inl ⟨hl, by cases h; rfl⟩
    · exact .inr ⟨hl, hp, by cases h; rfl⟩
    · cases h

/-- Where FEED faults (60 R320). -/
theorem State.feedByte_error {b : Byte} {r : Raised} (h : s.feedByte b = .error r) :
    (s.frameState = .outsideFrame ∧ b ≠ s.params.frameByte ∧ s.params.outsidePolicy = .fatal
        ∧ r = ⟨.outsideFrameByte, b⟩)
    ∨ (s.frameState = .inFrame ∧ b = s.params.frameByte ∧ s.rxOvf = false ∧ s.rxCrc = 0 ∧ s.rxLen = 2
        ∧ s.params.shortFramePolicy = .fault ∧ r = ⟨.shortFrame, 0⟩)
    ∨ (s.frameState ≠ .outsideFrame ∧ ¬ s.rxLen < s.params.rxBufSize ∧ s.params.rxOverflowPolicy = .fault
        ∧ r = ⟨.rxBufferOverflow, 0⟩) := by
  rcases s.feedByte_cases b with ⟨hs, hb, e⟩ | ⟨hs, hb, e⟩ | ⟨hs, hb, e⟩ | ⟨hs, hb, he, e⟩ | ⟨hs, hb, he, e⟩ | ⟨hs, e⟩
  all_goals rw [e] at h
  · cases h
  · refine .inl ⟨hs, hb, ?_⟩
    rw [State.outsideByte] at h
    cases hp : s.params.outsidePolicy <;> simp_all
  · by_cases hc : s.rxLen < 2 ∧ s.rxOvf = false
    · rw [s.closeFrame_ignores hc.1 hc.2] at h
      cases h
    · rw [s.closeFrame_dispatches (by
        cases ho : s.rxOvf with
        | true => exact .inr rfl
        | false => exact .inl (Nat.le_of_not_lt fun hl => hc ⟨hl, ho⟩))] at h
      rcases s.dispatch_cases with ⟨-, hd⟩ | ⟨-, -, -, -, hd⟩ | ⟨ho, h0, hl, hp, hd⟩ | ⟨-, -, -, -, hd⟩
          | ⟨-, -, -, -, hd⟩ <;> rw [hd] at h <;> cases h
      exact .inr (.inl ⟨hs, hb, ho, h0, hl, hp, rfl⟩)
  · cases h
  · rcases s.rxAppend_cases b with ⟨hl, hr⟩ | ⟨hl, hp, hr⟩ | ⟨hl, hp, hr⟩ <;> rw [hr] at h <;> cases h
    exact .inr (.inr ⟨by simp [hs], hl, hp, rfl⟩)
  · rcases s.rxAppend_cases (unescape s.params b) with ⟨hl, hr⟩ | ⟨hl, hp, hr⟩ | ⟨hl, hp, hr⟩ <;> rw [hr] at h
      <;> cases h
    exact .inr (.inr ⟨by simp [hs], hl, hp, rfl⟩)

end Sys2Proof.Machine
end

