-- ==== Sys2Proof/Laws/Memory.lean ====
section
/-! SUPPORT. The laws of the byte memories: a read after a write, what a write leaves alone, and the canonical form. -/

namespace Sys2Proof.Machine

/-! ### Lookup -/

theorem Memory.lookup_filter_same (l : List Host.Cell) (k : Nat) :
    Memory.lookup (l.filter fun c => c.1 ≠ k) k = Memory.unlisted := by
  induction l with
  | nil => rfl
  | cons c rest ih =>
    by_cases h : c.1 = k
    · simpa [h] using ih
    · simpa [h, Memory.lookup] using ih

theorem Memory.lookup_filter_other (l : List Host.Cell) {j k : Nat} (hjk : j ≠ k) :
    Memory.lookup (l.filter fun c => c.1 ≠ k) j = Memory.lookup l j := by
  induction l with
  | nil => rfl
  | cons c rest ih =>
    by_cases h : c.1 = k
    · have : c.1 ≠ j := fun e => hjk (e.symm.trans h)
      simpa [h, Memory.lookup, Ne.symm hjk] using ih
    · by_cases hj : c.1 = j
      · simp [hj, Memory.lookup, hjk]
      · simpa [h, hj, Memory.lookup] using ih

theorem Memory.lookup_insert_same (l : List Host.Cell) (k : Nat) (v : Byte) (h : ∀ c ∈ l, c.1 ≠ k) :
    Memory.lookup (Memory.insert (k, v) l) k = v := by
  induction l with
  | nil => simp [Memory.insert, Memory.lookup]
  | cons c rest ih =>
    have hc : c.1 ≠ k := h c (by simp)
    have ih := ih fun d hd => h d (by simp [hd])
    by_cases hlt : c.1 < k
    · simpa [Memory.insert, hlt, Memory.lookup, hc] using ih
    · simp [Memory.insert, hlt, Memory.lookup]

theorem Memory.lookup_insert_other (l : List Host.Cell) (v : Byte) {j k : Nat} (hjk : j ≠ k) :
    Memory.lookup (Memory.insert (k, v) l) j = Memory.lookup l j := by
  induction l with
  | nil => simp [Memory.insert, Memory.lookup, Ne.symm hjk]
  | cons c rest ih =>
    by_cases hlt : c.1 < k
    · simp [Memory.insert, hlt, Memory.lookup, ih]
    · simp [Memory.insert, hlt, Memory.lookup, Ne.symm hjk]

/-! ### Read after write -/

/-- 20 R76: a byte reads as what was last written to it. -/
@[simp] theorem Memory.read_write_same (m : Memory) (k : Nat) (v : Byte) : (m.write k v).read k = v := by
  unfold Memory.write Memory.read
  by_cases h : v = Memory.unlisted
  · simp only [h, if_true]
    exact Memory.lookup_filter_same m.cells k
  · simp only [h, if_false]
    exact Memory.lookup_insert_same _ k v (by simp)

/-- 20 R76: "a memory write changes only the byte it names". -/
theorem Memory.read_write_other (m : Memory) (v : Byte) {j k : Nat} (h : j ≠ k) :
    (m.write k v).read j = m.read j := by
  unfold Memory.write Memory.read
  by_cases hv : v = Memory.unlisted
  · simp only [hv, if_true]
    exact Memory.lookup_filter_other m.cells h
  · simp only [hv, if_false]
    rw [Memory.lookup_insert_other _ v h]
    exact Memory.lookup_filter_other m.cells h

/-- Both cases of a read after a write. -/
theorem Memory.read_write (m : Memory) (j k : Nat) (v : Byte) :
    (m.write k v).read j = if j = k then v else m.read j := by
  split
  · next h => rw [h, Memory.read_write_same]
  · next h => exact Memory.read_write_other m v h

@[simp] theorem Memory.read_empty (k : Nat) : Memory.empty.read k = Memory.unlisted := rfl

/-! ### The canonical form -/

theorem Memory.mem_insert {c d : Host.Cell} {l : List Host.Cell} :
    d ∈ Memory.insert c l ↔ d = c ∨ d ∈ l := by
  induction l with
  | nil => simp [Memory.insert]
  | cons e rest ih =>
    by_cases h : e.1 < c.1
    · simp only [Memory.insert, h, if_true, List.mem_cons, ih]
      tauto
    · simp [Memory.insert, h]

theorem Memory.pairwise_insert {c : Host.Cell} {l : List Host.Cell}
    (hl : l.Pairwise fun a b => a.1 < b.1) (hc : ∀ d ∈ l, d.1 ≠ c.1) :
    (Memory.insert c l).Pairwise fun a b => a.1 < b.1 := by
  induction l with
  | nil => simp [Memory.insert]
  | cons e rest ih =>
    obtain ⟨he, hrest⟩ := List.pairwise_cons.mp hl
    by_cases h : e.1 < c.1
    · simp only [Memory.insert, h, if_true]
      refine List.pairwise_cons.mpr ⟨fun d hd => ?_, ih hrest fun d hd => hc d (by simp [hd])⟩
      rcases Memory.mem_insert.mp hd with rfl | hd
      · exact h
      · exact he d hd
    · have hce : c.1 < e.1 := lt_of_le_of_ne (not_lt.mp h) (hc e (by simp)).symm
      simp only [Memory.insert, h, if_false]
      refine List.pairwise_cons.mpr ⟨fun d hd => ?_, hl⟩
      rcases List.mem_cons.mp hd with rfl | hd
      · exact hce
      · exact hce.trans (he d hd)

/-- A write keeps the canonical form. -/
theorem Memory.wf_write {m : Memory} (h : m.wf) (k : Nat) (v : Byte) : (m.write k v).wf := by
  have hp := h.1.filter fun c => decide (c.1 ≠ k)
  have hn : ∀ c ∈ m.cells.filter (fun c => c.1 ≠ k), c.2 ≠ Memory.unlisted := fun c hc =>
    h.2 c (List.mem_of_mem_filter hc)
  by_cases hv : v = Memory.unlisted
  · simpa [Memory.wf, Memory.write, hv] using And.intro hp hn
  · refine ⟨?_, fun c hc => ?_⟩
    · simpa [Memory.write, hv] using Memory.pairwise_insert (c := (k, v)) hp (by simp)
    · simp only [Memory.write, hv, if_false] at hc
      rcases Memory.mem_insert.mp hc with rfl | hc
      · exact hv
      · exact hn c hc

/-- A write inside an array keeps every listed byte inside it. -/
theorem Memory.within_write {m : Memory} {size k : Nat} (h : m.within size) (hk : k < size) (v : Byte) :
    (m.write k v).within size := by
  intro c hc
  unfold Memory.write at hc
  by_cases hv : v = Memory.unlisted
  · simp only [hv, if_true] at hc
    exact h c (List.mem_of_mem_filter hc)
  · simp only [hv, if_false] at hc
    rcases Memory.mem_insert.mp hc with rfl | hc
    · exact hk
    · exact h c (List.mem_of_mem_filter hc)

theorem Memory.wf_empty : Memory.empty.wf := by
  simp [Memory.wf, Memory.empty]

theorem Memory.within_empty (size : Nat) : Memory.empty.within size := by
  simp [Memory.within, Memory.empty]

/-! ### Ranges -/

@[simp] theorem Memory.length_readRange (m : Memory) (lo n : Nat) : (m.readRange lo n).length = n := by
  simp [Memory.readRange]

theorem Memory.readRange_succ (m : Memory) (lo n : Nat) :
    m.readRange lo (n + 1) = m.readRange lo n ++ [m.read (lo + n)] := by
  simp [Memory.readRange, List.range_succ]

theorem Memory.readRange_congr {m m' : Memory} {lo n : Nat} (h : ∀ k < n, m.read (lo + k) = m'.read (lo + k)) :
    m.readRange lo n = m'.readRange lo n := by
  simpa [Memory.readRange] using h

/-- A write at or past the end of a range leaves the range alone. -/
theorem Memory.readRange_write (m : Memory) (v : Byte) {lo n k : Nat} (h : lo + n ≤ k) :
    (m.write k v).readRange lo n = m.readRange lo n :=
  Memory.readRange_congr fun j hj => Memory.read_write_other m v (by omega)

end Sys2Proof.Machine
end

