-- ==== Sys2Proof/Laws/PerInstr.lean ====
section
/-! SUPPORT. Statements about every instruction as syntax, one lemma per constructor. -/

namespace Sys2Proof.Laws.CommandWord

/-- The two fields of an instruction's command word are its opcode and its operand (30 R100, R102). -/
def Statement (i : Instr) : Prop := opcField (encode i) = i.opcode ∧ opdField (encode i) = i.operand

/-- The two bytes of a concatenation. -/
theorem fields_append (x y : Byte) : opcField (x ++ y) = x ∧ opdField (x ++ y) = y := by
  have bit (k : Nat) : (x ++ y : CmdWord).getLsbD k = if k < 8 then y.getLsbD k else x.getLsbD (k - 8) :=
    BitVec.getLsbD_append
  constructor <;> ext i hi <;> simp [opcField, opdField, bit, hi]

theorem init : Statement .init := by
  constructor <;> rfl

theorem feed (b : Byte) : Statement (.feed b) := fields_append _ b

theorem start : Statement .start := by
  constructor <;> rfl

theorem append (b : Byte) : Statement (.append b) := fields_append _ b

theorem finish : Statement .finish := by
  constructor <;> rfl

theorem avail : Statement .avail := by
  constructor <;> rfl

theorem tick : Statement .tick := by
  constructor <;> rfl

end Sys2Proof.Laws.CommandWord
end

