-- ==== Sys2Proof/Laws/TxWindow.lean ====
section
/-! SUPPORT. What START, APPEND and FINISH do, said once: the whole next state, or the fault raised. -/

namespace Sys2Proof.Machine

variable (s : State)

/-- Two changes of one place are one change. -/
theorem modify_twice {α : Type} (l : List α) (i : Nat) (f g : α → α) :
    (l.modify i f).modify i g = l.modify i fun x => g (f x) := by
  apply List.ext_getElem?
  intro j
  simp only [List.getElem?_modify]
  split <;> cases l[j]? <;> rfl

theorem State.txOpen_iff : s.txOpen = true ↔ (s.slot (s.slotOf s.txSeq)).status = .preparing := by
  simp [State.txOpen]

theorem State.txOpen_eq_false : s.txOpen = false ↔ (s.slot (s.slotOf s.txSeq)).status ≠ .preparing := by
  simp [State.txOpen]

/-- A slot with a status other than NONE is one of the slot array. -/
theorem State.slot_inside {i : Nat} (h : (s.slot i).status ≠ .none) : i < s.slots.length := by
  by_contra hi
  simp [State.slot, List.getElem?_eq_none (Nat.le_of_not_lt hi), Slot.reset] at h

/-! ### START -/

theorem State.startPacket_open (h : s.txOpen = true) : s.startPacket = .error ⟨.packetAlreadyOpen, 0⟩ := by
  simp [State.startPacket, h]

theorem State.startPacket_full (h : s.txOpen = false) (hw : s.outstanding = s.params.window.size) :
    s.startPacket = .error ⟨.windowOverrun, 0⟩ := by
  simp [State.startPacket, h, hw]

theorem State.startPacket_ok (h : s.txOpen = false) (hw : s.outstanding ≠ s.params.window.size) :
    s.startPacket = .ok
      { s with
        slots := s.slots.modify (s.slotOf s.txSeq) fun sl => { sl with status := .preparing, len := 0 }
        txCrc := crcUpdate s.params.crcUpdate Config.crcInit (dataControl s.rxSeq s.txSeq)
        out := s.out ++ (s.params.frameByte :: esc s.params (dataControl s.rxSeq s.txSeq)).map .emit } := by
  simp [State.startPacket, h, hw, State.outputs, State.updateTxCrc, State.resetTxCrc, State.modifySlot, modify_twice]

theorem State.startPacket_cases :
    (s.txOpen = true ∧ s.startPacket = .error ⟨.packetAlreadyOpen, 0⟩)
    ∨ (s.txOpen = false ∧ s.outstanding = s.params.window.size ∧ s.startPacket = .error ⟨.windowOverrun, 0⟩)
    ∨ (s.txOpen = false ∧ s.outstanding ≠ s.params.window.size ∧ s.startPacket = .ok
        { s with
          slots := s.slots.modify (s.slotOf s.txSeq) fun sl => { sl with status := .preparing, len := 0 }
          txCrc := crcUpdate s.params.crcUpdate Config.crcInit (dataControl s.rxSeq s.txSeq)
          out := s.out ++ (s.params.frameByte :: esc s.params (dataControl s.rxSeq s.txSeq)).map .emit }) := by
  cases h : s.txOpen with
  | true => exact .inl ⟨rfl, s.startPacket_open h⟩
  | false =>
    by_cases hw : s.outstanding = s.params.window.size
    · exact .inr (.inl ⟨rfl, hw, s.startPacket_full h hw⟩)
    · exact .inr (.inr ⟨rfl, hw, s.startPacket_ok h hw⟩)

/-! ### APPEND -/

theorem State.appendByte_closed (b : Byte) (h : s.txOpen = false) :
    s.appendByte b = .error ⟨.noOpenPacket, 0⟩ := by
  simp [State.appendByte, h]

theorem State.appendByte_full (b : Byte) (h : s.txOpen = true)
    (hl : s.params.maxPayload ≤ (s.slot (s.slotOf s.txSeq)).len) :
    s.appendByte b = .error ⟨.txPayloadOverflow, 0⟩ := by
  simp [State.appendByte, h, hl]

theorem State.appendByte_ok (b : Byte) (h : s.txOpen = true)
    (hl : (s.slot (s.slotOf s.txSeq)).len < s.params.maxPayload) :
    s.appendByte b = .ok
      { s with
        slots := s.slots.modify (s.slotOf s.txSeq) fun sl =>
          { sl with len := sl.len + 1, payload := sl.payload.write sl.len b }
        txCrc := crcUpdate s.params.crcUpdate s.txCrc b
        out := s.out ++ (esc s.params b).map .emit } := by
  have hs : s.slots.modify (s.slotOf s.txSeq) (fun sl =>
        { sl with
          len := (s.slot (s.slotOf s.txSeq)).len + 1
          payload := sl.payload.write (s.slot (s.slotOf s.txSeq)).len b })
      = s.slots.modify (s.slotOf s.txSeq) fun sl =>
        { sl with len := sl.len + 1, payload := sl.payload.write sl.len b } := by
    apply List.ext_getElem?
    intro j
    simp only [List.getElem?_modify]
    split
    · rename_i e
      subst e
      simp only [State.slot, List.getD_eq_getElem?_getD]
      cases s.slots[s.slotOf s.txSeq]? <;> simp
    · rfl
  simp [State.appendByte, h, hl, State.outputs, State.updateTxCrc, State.modifySlot, modify_twice, hs]

theorem State.appendByte_cases (b : Byte) :
    (s.txOpen = false ∧ s.appendByte b = .error ⟨.noOpenPacket, 0⟩)
    ∨ (s.txOpen = true ∧ s.params.maxPayload ≤ (s.slot (s.slotOf s.txSeq)).len
        ∧ s.appendByte b = .error ⟨.txPayloadOverflow, 0⟩)
    ∨ (s.txOpen = true ∧ (s.slot (s.slotOf s.txSeq)).len < s.params.maxPayload ∧ s.appendByte b = .ok
        { s with
          slots := s.slots.modify (s.slotOf s.txSeq) fun sl =>
            { sl with len := sl.len + 1, payload := sl.payload.write sl.len b }
          txCrc := crcUpdate s.params.crcUpdate s.txCrc b
          out := s.out ++ (esc s.params b).map .emit }) := by
  cases h : s.txOpen with
  | false => exact .inl ⟨rfl, s.appendByte_closed b h⟩
  | true =>
    by_cases hl : (s.slot (s.slotOf s.txSeq)).len < s.params.maxPayload
    · exact .inr (.inr ⟨rfl, hl, s.appendByte_ok b h hl⟩)
    · exact .inr (.inl ⟨rfl, Nat.le_of_not_lt hl, s.appendByte_full b h (Nat.le_of_not_lt hl)⟩)

/-! ### FINISH -/

theorem State.finishPacket_closed (h : s.txOpen = false) : s.finishPacket = .error ⟨.noOpenPacket, 0⟩ := by
  simp [State.finishPacket, h]

theorem State.finishPacket_ok (h : s.txOpen = true) :
    s.finishPacket = .ok
      { s with
        slots := s.slots.modify (s.slotOf s.txSeq) fun sl => { sl with status := .sent, time := s.now }
        txSeq := seqAdd s.txSeq 1
        timerArmed := true
        out := s.out
          ++ (esc s.params (crcLow s.txCrc) ++ esc s.params (crcHigh s.txCrc) ++ [s.params.frameByte]).map .emit
          ++ [.flush] ++ if s.timerArmed then [] else [.arm s.params.ackDelay] } := by
  obtain ha | ha : s.timerArmed = true ∨ s.timerArmed = false := by cases s.timerArmed <;> simp
  all_goals
    simp [State.finishPacket, h, ha, State.endFrame_eq, State.outputs, State.armTimer, State.modifySlot, modify_twice]

theorem State.finishPacket_cases :
    (s.txOpen = false ∧ s.finishPacket = .error ⟨.noOpenPacket, 0⟩)
    ∨ (s.txOpen = true ∧ s.finishPacket = .ok
        { s with
          slots := s.slots.modify (s.slotOf s.txSeq) fun sl => { sl with status := .sent, time := s.now }
          txSeq := seqAdd s.txSeq 1
          timerArmed := true
          out := s.out
            ++ (esc s.params (crcLow s.txCrc) ++ esc s.params (crcHigh s.txCrc) ++ [s.params.frameByte]).map .emit
            ++ [.flush] ++ if s.timerArmed then [] else [.arm s.params.ackDelay] }) := by
  cases h : s.txOpen with
  | false => exact .inl ⟨rfl, s.finishPacket_closed h⟩
  | true => exact .inr ⟨rfl, s.finishPacket_ok h⟩

end Sys2Proof.Machine
end

