-- ==== Sys2Proof/Laws/Step.lean ====
section
/-! SUPPORT. What a command's step can end in, said once: no step faults or is refused, a command that raises enters the fault
state from the state it found, and a step is the decoded command's. -/

namespace Sys2Proof.Machine

variable (s : State)

/-! ### One command -/

theorem State.perform_ok {body : State → Except Raised State} {t : State} (h : s.faultCode = 0) (hb : body s = .ok t) :
    s.perform body = .next t := by
  simp [State.perform, State.faulted, h, hb]

theorem State.perform_error {body : State → Except Raised State} {r : Raised} (h : s.faultCode = 0)
    (hb : body s = .error r) : s.perform body = .next (s.takeFault r) := by
  simp [State.perform, State.faulted, h, hb]

theorem State.perform_faulted {body : State → Except Raised State} (h : s.faultCode ≠ 0) :
    s.perform body = .next s := by
  rw [State.perform, if_pos (by simpa [State.faulted] using h)]

/-- All that a command other than INIT can end in. -/
theorem State.perform_cases {body : State → Except Raised State} {t : State} (h : s.perform body = .next t) :
    (s.faultCode ≠ 0 ∧ t = s)
    ∨ (s.faultCode = 0 ∧ body s = .ok t)
    ∨ ∃ r, s.faultCode = 0 ∧ body s = .error r ∧ t = s.takeFault r := by
  by_cases hf : s.faultCode = 0
  · cases hb : body s with
    | ok u =>
      rw [s.perform_ok hf hb] at h
      exact .inr (.inl ⟨hf, by simpa using h⟩)
    | error r =>
      rw [s.perform_error hf hb] at h
      exact .inr (.inr ⟨r, hf, rfl, by simpa using h.symm⟩)
  · rw [s.perform_faulted hf] at h
    exact .inl ⟨hf, by simpa using h.symm⟩

/-- A command always answers a next state. -/
theorem State.perform_next (body : State → Except Raised State) : ∃ t, s.perform body = .next t := by
  by_cases hf : s.faultCode = 0
  · cases hb : body s with
    | ok u => exact ⟨u, s.perform_ok hf hb⟩
    | error r => exact ⟨_, s.perform_error hf hb⟩
  · exact ⟨s, s.perform_faulted hf⟩

/-! ### Each command by its name -/

theorem exec_feed_ok {b : Byte} {t : State} (h : s.faultCode = 0) (hb : s.feedByte b = .ok t) :
    exec (.feed b) s = .next t := State.perform_ok s (body := fun s => s.feedByte b) h hb

theorem exec_feed_error {b : Byte} {r : Raised} (h : s.faultCode = 0) (hb : s.feedByte b = .error r) :
    exec (.feed b) s = .next (s.takeFault r) := State.perform_error s (body := fun s => s.feedByte b) h hb

theorem exec_start_ok {t : State} (h : s.faultCode = 0) (hb : s.startPacket = .ok t) :
    exec .start s = .next t := s.perform_ok h hb

theorem exec_start_error {r : Raised} (h : s.faultCode = 0) (hb : s.startPacket = .error r) :
    exec .start s = .next (s.takeFault r) := s.perform_error h hb

theorem exec_append_ok {b : Byte} {t : State} (h : s.faultCode = 0) (hb : s.appendByte b = .ok t) :
    exec (.append b) s = .next t := State.perform_ok s (body := fun s => s.appendByte b) h hb

theorem exec_append_error {b : Byte} {r : Raised} (h : s.faultCode = 0) (hb : s.appendByte b = .error r) :
    exec (.append b) s = .next (s.takeFault r) := State.perform_error s (body := fun s => s.appendByte b) h hb

theorem exec_finish_ok {t : State} (h : s.faultCode = 0) (hb : s.finishPacket = .ok t) :
    exec .finish s = .next t := s.perform_ok h hb

theorem exec_finish_error {r : Raised} (h : s.faultCode = 0) (hb : s.finishPacket = .error r) :
    exec .finish s = .next (s.takeFault r) := s.perform_error h hb

theorem exec_avail (h : s.faultCode = 0) : exec .avail s = .next (s.outputs [.avail s.available]) :=
  State.perform_ok s (body := fun s => .ok (s.output (.avail s.available))) h rfl

theorem exec_tick (h : s.faultCode = 0) : exec .tick s = .next s.checkTimeouts :=
  State.perform_ok s (body := fun s => .ok s.checkTimeouts) h rfl

theorem exec_init : exec .init s = .next s.initialise := rfl

/-- In the fault state no command but INIT does anything (60 R322). -/
theorem exec_faulted {i : Instr} (h : s.faultCode ≠ 0) (hi : i ≠ .init) : exec i s = .next s := by
  cases i with
  | init => exact absurd rfl hi
  | feed b => exact State.perform_faulted s (body := fun s => s.feedByte b) h
  | start => exact s.perform_faulted h
  | append b => exact State.perform_faulted s (body := fun s => s.appendByte b) h
  | finish => exact s.perform_faulted h
  | avail => exact State.perform_faulted s (body := fun s => .ok (s.output (.avail s.available))) h
  | tick => exact State.perform_faulted s (body := fun s => .ok s.checkTimeouts) h

/-- All that a command can end in, by the body it runs. -/
theorem exec_cases {i : Instr} {t : State} (h : exec i s = .next t) :
    (i = .init ∧ t = s.initialise)
    ∨ (i ≠ .init ∧ s.faultCode ≠ 0 ∧ t = s)
    ∨ (s.faultCode = 0 ∧ ∃ b, i = .feed b ∧ (s.feedByte b = .ok t ∨ ∃ r, s.feedByte b = .error r ∧ t = s.takeFault r))
    ∨ (s.faultCode = 0 ∧ i = .start ∧ (s.startPacket = .ok t ∨ ∃ r, s.startPacket = .error r ∧ t = s.takeFault r))
    ∨ (s.faultCode = 0 ∧ ∃ b, i = .append b
        ∧ (s.appendByte b = .ok t ∨ ∃ r, s.appendByte b = .error r ∧ t = s.takeFault r))
    ∨ (s.faultCode = 0 ∧ i = .finish ∧ (s.finishPacket = .ok t ∨ ∃ r, s.finishPacket = .error r ∧ t = s.takeFault r))
    ∨ (s.faultCode = 0 ∧ i = .avail ∧ t = s.outputs [.avail s.available])
    ∨ (s.faultCode = 0 ∧ i = .tick ∧ t = s.checkTimeouts) := by
  by_cases hi : i = .init
  · subst hi
    exact .inl ⟨rfl, by simpa [exec_init] using h.symm⟩
  by_cases hf : s.faultCode = 0
  · cases i with
    | init => exact absurd rfl hi
    | feed b =>
      rcases State.perform_cases s (body := fun s => s.feedByte b) h with ⟨hn, -⟩ | ⟨-, hb⟩ | ⟨r, -, hb, e⟩
      · exact absurd hf hn
      · exact .inr (.inr (.inl ⟨hf, b, rfl, .inl hb⟩))
      · exact .inr (.inr (.inl ⟨hf, b, rfl, .inr ⟨r, hb, e⟩⟩))
    | start =>
      rcases s.perform_cases h with ⟨hn, -⟩ | ⟨-, hb⟩ | ⟨r, -, hb, e⟩
      · exact absurd hf hn
      · exact .inr (.inr (.inr (.inl ⟨hf, rfl, .inl hb⟩)))
      · exact .inr (.inr (.inr (.inl ⟨hf, rfl, .inr ⟨r, hb, e⟩⟩)))
    | append b =>
      rcases State.perform_cases s (body := fun s => s.appendByte b) h with ⟨hn, -⟩ | ⟨-, hb⟩ | ⟨r, -, hb, e⟩
      · exact absurd hf hn
      · exact .inr (.inr (.inr (.inr (.inl ⟨hf, b, rfl, .inl hb⟩))))
      · exact .inr (.inr (.inr (.inr (.inl ⟨hf, b, rfl, .inr ⟨r, hb, e⟩⟩))))
    | finish =>
      rcases s.perform_cases h with ⟨hn, -⟩ | ⟨-, hb⟩ | ⟨r, -, hb, e⟩
      · exact absurd hf hn
      · exact .inr (.inr (.inr (.inr (.inr (.inl ⟨hf, rfl, .inl hb⟩)))))
      · exact .inr (.inr (.inr (.inr (.inr (.inl ⟨hf, rfl, .inr ⟨r, hb, e⟩⟩)))))
    | avail =>
      rw [exec_avail s hf] at h
      exact .inr (.inr (.inr (.inr (.inr (.inr (.inl ⟨hf, rfl, by simpa using h.symm⟩))))))
    | tick =>
      rw [exec_tick s hf] at h
      exact .inr (.inr (.inr (.inr (.inr (.inr (.inr ⟨hf, rfl, by simpa using h.symm⟩))))))
  · rw [exec_faulted s hf hi] at h
    exact .inr (.inl ⟨hi, hf, by simpa using h.symm⟩)

theorem FaultName.code_ne_zero (n : FaultName) : n.code ≠ 0 := by
  cases n <;> decide

theorem FaultName.code_le (n : FaultName) : n.code.toNat ≤ 8 := by
  cases n <;> decide

/-! ### One step -/

theorem step_idle (h : s.port = []) : step s = .next s := by
  simp [step, State.fetch, h, idleStep]

theorem step_decoded {r : Request} {rest : List Request} {i : Instr} (h : s.port = r :: rest)
    (hd : decode r.word = .ok i) : step s = exec i (s.acceptRequest r rest) := by
  simp [step, State.fetch, h, hd]

theorem step_rejected {r : Request} {rest : List Request} {e : DecodeError} (h : s.port = r :: rest)
    (hd : decode r.word = .error e) : step s = rejectWord e (s.acceptRequest r rest) := by
  simp [step, State.fetch, h, hd]

/-- All that a step can be. -/
theorem step_cases :
    (s.port = [] ∧ step s = .next s)
    ∨ (∃ r rest i, s.port = r :: rest ∧ decode r.word = .ok i ∧ step s = exec i (s.acceptRequest r rest))
    ∨ ∃ r rest e, s.port = r :: rest ∧ decode r.word = .error e ∧ step s = rejectWord e (s.acceptRequest r rest) := by
  cases hp : s.port with
  | nil => exact .inl ⟨rfl, step_idle s hp⟩
  | cons r rest =>
    cases hd : decode r.word with
    | ok i => exact .inr (.inl ⟨r, rest, i, rfl, hd, step_decoded s hp hd⟩)
    | error e => exact .inr (.inr ⟨r, rest, e, rfl, hd, step_rejected s hp hd⟩)

/-- Every command answers a next state: a fault of the block is one (60 R322). -/
theorem exec_next (i : Instr) : ∃ t, exec i s = .next t := by
  cases i with
  | init => exact ⟨_, rfl⟩
  | feed b => exact s.perform_next fun s => s.feedByte b
  | start => exact s.perform_next State.startPacket
  | append b => exact s.perform_next fun s => s.appendByte b
  | finish => exact s.perform_next State.finishPacket
  | avail => exact s.perform_next fun s => .ok (s.output (.avail s.available))
  | tick => exact s.perform_next fun s => .ok s.checkTimeouts

end Sys2Proof.Machine
end

