-- ==== Sys2Proof/Laws/Run.lean ====
section
/-! SUPPORT. What a command does to the stored times of the SENT slots, and the clock of a run, said once. -/

namespace Sys2Proof.Machine

variable (s : State)

/-! ### The stored times -/

/-- Each slot that is SENT in `t` is SENT in `s`, with the same stored time. -/
def State.keepsTimes (s t : State) : Prop :=
  ∀ k, (t.slot k).status = .sent → (s.slot k).status = .sent ∧ (t.slot k).time = (s.slot k).time

theorem State.keepsTimes_of_slots {t : State} (h : t.slots = s.slots) : s.keepsTimes t := fun k hk => by
  have e : t.slot k = s.slot k := by rw [State.slot, h]; rfl
  exact ⟨e ▸ hk, by rw [e]⟩

/-- A slot modified to anything but SENT. -/
theorem State.keepsTimes_modify {t : State} {i : Nat} {f : Slot → Slot} (h : t.slots = s.slots.modify i f)
    (hf : ((f (s.slot i)).status ≠ .sent)) : s.keepsTimes t := fun k hk => by
  have e : t.slot k = (s.modifySlot i f).slot k := by rw [State.slot, h]; rfl
  rw [e] at hk ⊢
  by_cases hki : k = i
  · subst hki
    by_cases hl : k < s.slots.length
    · rw [s.slot_modifySlot _ _ _ hl, if_pos rfl] at hk
      exact absurd hk hf
    · simp [State.slot, hl, Slot.reset] at hk
  · rw [s.slot_modifySlot_ne f hki] at hk ⊢
    exact ⟨hk, rfl⟩

theorem State.ackUpto_keepsTimes (p : Seq) : s.keepsTimes (s.ackUpto p) := by
  rcases s.ackUpto_cases p with h | ⟨-, -, h⟩
  · rw [h]
    exact s.keepsTimes_of_slots rfl
  · intro k hk
    have e : (s.ackUpto p).slot k = (s.clearSlots s.ackSeq (seqDist s.ackSeq p)).slot k := by
      rw [h]
      rfl
    rw [e] at hk ⊢
    by_cases hl : k < s.slots.length
    · rw [s.clearSlots_slot _ _ _ hl] at hk ⊢
      split at hk
      · cases hk
      · rename_i hc
        rw [if_neg hc]
        exact ⟨hk, rfl⟩
    · simp [State.slot, s.clearSlots_length, hl, Slot.reset] at hk

theorem State.afterPiggyback_keepsTimes (ctrl : Byte) : s.keepsTimes (s.afterPiggyback ctrl) := by
  rcases s.afterPiggyback_cases ctrl with h | h <;> rw [h]
  · exact s.keepsTimes_of_slots rfl
  · exact s.ackUpto_keepsTimes _

theorem State.feedByte_keepsTimes {b : Byte} {t : State} (h : s.feedByte b = .ok t) : s.keepsTimes t := by
  rcases s.feedByte_ok h with ⟨-, -, rfl⟩ | ⟨-, -, -, rfl⟩ | ⟨-, -, -, rfl⟩ | ⟨-, -, -, rfl⟩ | ⟨-, -, -, rfl⟩
    | ⟨-, -, rfl⟩ | ⟨-, -, -, rfl⟩ | ⟨v, -, ⟨-, rfl⟩ | ⟨-, -, rfl⟩⟩
  case inr.inr.inr.inl => exact fun k hk => s.afterPiggyback_keepsTimes _ k hk
  case inr.inr.inr.inr.inl => exact fun k hk => s.afterPiggyback_keepsTimes _ k hk
  case inr.inr.inr.inr.inr.inl => exact fun k hk => s.ackUpto_keepsTimes _ k hk
  all_goals exact State.keepsTimes_of_slots _ rfl

/-- All that a command does to the stored times: the slot it stamps, if any, holds its own sample, and every other SENT slot was
SENT before with the same stored time. -/
theorem exec_times {i : Instr} {t : State} (h : exec i s = .next t) (k : Nat) (hk : (t.slot k).status = .sent) :
    (s.stampedSlot i = some k ∧ (t.slot k).time = s.now)
    ∨ (s.stampedSlot i ≠ some k ∧ (s.slot k).status = .sent ∧ (t.slot k).time = (s.slot k).time) := by
  have keeps (hn : s.stampedSlot i = none) (ht : s.keepsTimes t) :
      (s.stampedSlot i = some k ∧ (t.slot k).time = s.now)
      ∨ (s.stampedSlot i ≠ some k ∧ (s.slot k).status = .sent ∧ (t.slot k).time = (s.slot k).time) :=
    .inr ⟨by simp [hn], ht k hk⟩
  -- a command that stamps slot `j` and leaves the other slots
  have stamps {j : Nat} {f : Slot → Slot} (hj : s.stampedSlot i = some j) (ht : t.slots = s.slots.modify j f)
      (hf : ∀ sl, (f sl).time = s.now) :
      (s.stampedSlot i = some k ∧ (t.slot k).time = s.now)
      ∨ (s.stampedSlot i ≠ some k ∧ (s.slot k).status = .sent ∧ (t.slot k).time = (s.slot k).time) := by
    have e : t.slot k = (s.modifySlot j f).slot k := by rw [State.slot, ht]; rfl
    by_cases hkj : k = j
    · subst hkj
      by_cases hl : k < s.slots.length
      · exact .inl ⟨hj, by rw [e, s.slot_modifySlot _ _ _ hl, if_pos rfl, hf]⟩
      · rw [e] at hk
        simp [State.slot, hl, Slot.reset] at hk
    · rw [s.slot_modifySlot_ne f hkj] at e
      exact .inr ⟨by simpa [hj] using fun h => hkj h.symm, e ▸ hk, by rw [e]⟩
  rcases exec_cases s h with ⟨rfl, rfl⟩ | ⟨-, hf, rfl⟩ | ⟨hf, b, rfl, hb | ⟨r, -, rfl⟩⟩ | ⟨hf, rfl, hb | ⟨r, -, rfl⟩⟩
    | ⟨hf, b, rfl, hb | ⟨r, -, rfl⟩⟩ | ⟨hf, rfl, hb | ⟨r, hb, rfl⟩⟩ | ⟨hf, rfl, rfl⟩ | ⟨hf, rfl, rfl⟩
  · exfalso
    by_cases hl : k < s.slots.length <;> simp [State.slot, hl, Slot.reset] at hk
  · exact keeps (if_neg hf) (t.keepsTimes_of_slots rfl)
  · exact keeps (by simp [State.stampedSlot]) (s.feedByte_keepsTimes hb)
  · exact keeps (by simp [State.stampedSlot]) (s.keepsTimes_of_slots rfl)
  · rcases s.startPacket_cases with ⟨-, e⟩ | ⟨-, -, e⟩ | ⟨-, -, e⟩ <;> rw [e] at hb <;> cases hb
    exact keeps (by simp [State.stampedSlot]) (s.keepsTimes_modify rfl (by simp))
  · exact keeps (by simp [State.stampedSlot]) (s.keepsTimes_of_slots rfl)
  · rcases s.appendByte_cases b with ⟨-, e⟩ | ⟨-, -, e⟩ | ⟨ho, -, e⟩ <;> rw [e] at hb <;> cases hb
    exact keeps (by simp [State.stampedSlot]) (s.keepsTimes_modify rfl (by simp [s.txOpen_iff.mp ho]))
  · exact keeps (by simp [State.stampedSlot]) (s.keepsTimes_of_slots rfl)
  · rcases s.finishPacket_cases with ⟨-, e⟩ | ⟨ho, e⟩ <;> rw [e] at hb <;> cases hb
    exact stamps (by simp [State.stampedSlot, hf, ho]) rfl fun _ => rfl
  · rcases s.finishPacket_cases with ⟨ho, -⟩ | ⟨-, e⟩
    · exact keeps (by simp [State.stampedSlot, ho]) (s.keepsTimes_of_slots rfl)
    · rw [e] at hb
      cases hb
  · exact keeps (by simp [State.stampedSlot]) (s.keepsTimes_of_slots rfl)
  · rcases s.checkTimeouts_cases with ⟨ha, e⟩ | ⟨-, ho, e⟩ | ⟨q, -, ho, e⟩ <;> rw [e] at hk ⊢
    · refine .inr ⟨fun hs => ?_, hk, rfl⟩
      have hin : k < s.slots.length := s.slot_inside (by rw [hk]; simp)
      have := s.anySent_iff_slot.mpr ⟨k, hin, hk⟩
      simp [ha] at this
    · exact .inr ⟨by simp [State.stampedSlot, ho], hk, rfl⟩
    · rw [e] at stamps
      exact stamps (j := s.slotOf q) (by simp [State.stampedSlot, hf, ho]) (by rw [State.retransmit_eq]; rfl) fun _ => rfl

/-! ### The clock of a run -/

variable (c : Clock)

@[simp] theorem Clock.afterDraw_draws (w : CmdWord) (n : Nat) : (c.afterDraw s w n).draws = c.draws ++ [n] := rfl

/-- A word that is no command stamps no slot. -/
theorem Clock.afterDraw_stamps_illegal {w : CmdWord} {e : DecodeError} (n : Nat) (h : decode w = .error e) :
    (c.afterDraw s w n).stamps = c.stamps := by
  simp [Clock.afterDraw, h]

theorem Clock.afterDraw_stamps_kept {w : CmdWord} {i : Instr} {n : Nat} (h : decode w = .ok i)
    (hs : (s.sampledAt n).stampedSlot i = none) : (c.afterDraw s w n).stamps = c.stamps := by
  simp [Clock.afterDraw, h, hs]

theorem Clock.afterDraw_stamps_set {w : CmdWord} {i : Instr} {n k : Nat} (h : decode w = .ok i)
    (hs : (s.sampledAt n).stampedSlot i = some k) : (c.afterDraw s w n).stamps = c.stamps.set k n := by
  simp [Clock.afterDraw, h, hs]

@[simp] theorem State.sampledAt_now (n : Nat) : (s.sampledAt n).now = sampleOf n := rfl
@[simp] theorem State.sampledAt_slots (n : Nat) : (s.sampledAt n).slots = s.slots := rfl
@[simp] theorem State.sampledAt_slot (n k : Nat) : (s.sampledAt n).slot k = s.slot k := rfl

end Sys2Proof.Machine
end

