-- ==== Sys2Proof/Tests/Slice0.lean ====
section
/-! SUPPORT. Tests. Expected values come from spec/ (the worked examples of its rules, the vectors of 95_test_vectors.md) or are
calculated by hand from its tables. The last part holds, for each obligation with hypotheses, states that meet them. -/

namespace Sys2Proof.Tests

open Sys2Proof.Machine

/-! ### Small states -/

/-- An instance with small buffers: `MAX_PAYLOAD` 2, `RX_BUF_SIZE` 5, the least that 00 R15 allows. -/
def small : Params := { Params.default with maxPayload := 2, rxBufSize := 5 }

/-- A slot holding `bytes` from index 0. -/
def slotWith (st : SlotStatus) (time : Time) (bytes : List Byte) : Slot :=
  { status := st, len := bytes.length, time := time
    payload := (bytes.zipIdx).foldl (fun m p => m.write p.2 p.1) Memory.empty }

/-- An `RXBUF` holding `bytes` from index 0. -/
def bufWith (bytes : List Byte) : Memory := (bytes.zipIdx).foldl (fun m p => m.write p.2 p.1) Memory.empty

/-- Right after power-on. -/
def fresh : State := State.powerOn small

/-- Sequence 0 is open and holds `bytes`. -/
def opened (bytes : List Byte) : State :=
  { fresh with slots := slotWith .preparing 0 bytes :: List.replicate 3 Slot.reset }

/-- Sequence 0, payload `41`, was sent at time 0; the timer is armed. -/
def sentOne : State :=
  { fresh with txSeq := 1, timerArmed := true, slots := slotWith .sent 0 [0x41] :: List.replicate 3 Slot.reset }

/-- Four packets, sequences 0 to 3, were sent at times 0, 5, 6 and 7: the window is full. -/
def sentFour : State :=
  { fresh with
    txSeq := 4, timerArmed := true
    slots := [slotWith .sent 0 [0x41], slotWith .sent 5 [], slotWith .sent 6 [], slotWith .sent 7 []] }

/-- In a frame whose de-escaped bytes so far are `bytes`. -/
def receiving (bytes : List Byte) : State :=
  { fresh with
    frameState := .inFrame, rxLen := bytes.length, rxBuf := bufWith bytes, rxCrc := crcOf .standard bytes }

/-- In the fault state. -/
def stuck : State := { sentOne with faultCode := 4, faultInfo := 0 }

/-- The state an outcome goes on in. -/
def after (o : Host.Outcome State Fault Refusal) : State :=
  match o with
  | .next t => t
  | .fault _ | .refused _ => State.reset

/-! ### WellFormed: an ill-formed term for each check, which the check refuses -/

theorem test_default_wellFormed : Params.default.wellFormed := by decide
theorem test_small_wellFormed : small.wellFormed := by decide
theorem test_escape_differs : ¬ ({ Params.default with escapeByte := 0x7E } : Params).escapeLegal := by decide
theorem test_escape_mask_nonzero : ¬ ({ Params.default with escapeMask := 0 } : Params).escapeLegal := by decide
theorem test_escape_frame_image : ¬ ({ Params.default with escapeMask := 0x03 } : Params).escapeLegal := by decide
theorem test_max_payload_positive : ¬ ({ Params.default with maxPayload := 0 } : Params).sizesLegal := by decide
theorem test_rx_buf_too_small : ¬ ({ Params.default with rxBufSize := 18 } : Params).sizesLegal := by decide
theorem test_ack_delay_zero : ¬ ({ Params.default with ackDelay := 0 } : Params).ackDelayLegal := by decide
theorem test_ack_delay_too_long : ¬ ({ Params.default with ackDelay := 0x80000000 } : Params).ackDelayLegal := by decide
theorem test_word_opcode_zero : ¬ CmdWord.legal 0x0000 := by decide
theorem test_word_opcode_eight : ¬ CmdWord.legal 0x0800 := by decide
theorem test_word_operand_not_zero : ¬ CmdWord.legal 0x0301 := by decide
theorem test_line_time_too_large : ¬ (Line.mk (some (2 ^ 32)) (.command .tick)).wellFormed := by decide
theorem test_line_no_bytes : ¬ (Line.mk none (.feeds [])).wellFormed := by decide
theorem test_line_legal : (Line.mk (some (2 ^ 32 - 1)) (.send [0x41])).wellFormed := by decide

/-! ### Decode: words written out from the encoding table of 30 R100 and R102, `OPC` then `OPD` -/

theorem test_decode_init : decode 0b00000001_00000000#16 = .ok .init := by decide
theorem test_decode_feed : decode 0b00000010_01111110#16 = .ok (.feed 0x7E) := by decide
theorem test_decode_start : decode 0b00000011_00000000#16 = .ok .start := by decide
theorem test_decode_append : decode 0b00000100_01000001#16 = .ok (.append 0x41) := by decide
theorem test_decode_finish : decode 0b00000101_00000000#16 = .ok .finish := by decide
theorem test_decode_avail : decode 0b00000110_00000000#16 = .ok .avail := by decide
theorem test_decode_tick : decode 0b00000111_00000000#16 = .ok .tick := by decide
theorem test_decode_opcode_zero : decode 0x0041 = .error (.opcodeOutsideMap 0x00) := by decide
theorem test_decode_opcode_ff : decode 0xFF00 = .error (.opcodeOutsideMap 0xFF) := by decide
theorem test_decode_operand : decode 0x0180 = .error (.operandNotZero 0x01 0x80) := by decide
theorem test_decode_table_word : decodeTableWord 16 0x0441 = some (.append 0x41) := by decide
theorem test_decode_table_illegal : decodeTableWord 16 0x0001 = none := by decide

/-! ### CRC, escape codec and control bytes -/

/-- 40 R141, R145, R148: `CRC_UPDATE(0xFFFF, 0x80)`, the body prefix `80 41`, the check string. -/
theorem test_crc_update : crcUpdate .standard 0xFFFF 0x80 = 0x8B8F := by decide
theorem test_crc_prefix : withTrailer .standard [0x80, 0x41] = [0x80, 0x41, 0xF9, 0x2F] := by decide
theorem test_crc_valid : crcOf .standard [0x80, 0x41, 0xF9, 0x2F] = 0 := by decide

/-- 30 R110: the two escaped values under the defaults, and one of the others. -/
theorem test_esc_frame : esc Params.default 0x7E = [0x7D, 0x5E] := by decide
theorem test_esc_escape : esc Params.default 0x7D = [0x7D, 0x5D] := by decide
theorem test_esc_other : esc Params.default 0x20 = [0x20] := by decide

/-- 44 R260, 42 R197: the control byte of an ACK-only frame with `RX_SEQ = 7`, `TX_SEQ = 6`; of a data frame. -/
theorem test_ack_control : ackControl 7 6 = 0x3E := by decide
theorem test_data_control : dataControl 1 5 = 0x8D := by decide

/-- 44 R254: `is_data`, `piggyback_rx_seq`, `sender_seq` of 0xED; bit 6 is ignored. -/
theorem test_control_fields : isData 0xED = true ∧ piggyback 0xED = 5 ∧ senderSeq 0xED = 5 := by decide

/-! ### One step of each command -/

/-- 70 R350: INIT leaves the fault state and emits nothing, although the timer was armed. -/
theorem test_init : let t := after (exec .init stuck)
    t.faultCode = 0 ∧ t.timerArmed = false ∧ t.txSeq = 0 ∧ t.out = [] ∧ (t.slot 0).status = .none := by decide

/-- 70 R350: INIT leaves the bytes of `SLOT[0]`. -/
theorem test_init_memory : ((after (exec .init sentOne)).slot 0).payload.read 0 = 0x41 := by decide

/-- 43 R220, 44 R250: closing the frame `80 41 F9 2F` delivers `41` and sends the ACK-only frame `7E 08 CF 83 7E`. -/
theorem test_feed_delivers : let t := after (exec (.feed 0x7E) (receiving [0x80, 0x41, 0xF9, 0x2F]))
    t.rxSeq = 1 ∧ t.rxLen = 0 ∧ t.rxCrc = 0xFFFF
      ∧ t.out = .deliver [0x41] :: ([0x7E, 0x08, 0xCF, 0x83, 0x7E].map Event.emit ++ [.flush]) := by decide

/-- 43 R222: a byte outside a frame. -/
theorem test_feed_outside : after (exec (.feed 0x41) fresh) = { fresh with faultCode := 1, faultInfo := 0x41 } := by decide

/-- 42 R180: START from reset emits `7E 80` and leaves `TX_CRC = 0x8B8F`. -/
theorem test_start : let t := after (exec .start fresh)
    t.out = [.emit 0x7E, .emit 0x80] ∧ t.txCrc = 0x8B8F ∧ t.txSeq = 0 ∧ (t.slot 0).status = .preparing := by decide

/-- 42 R181: START with the window full. -/
theorem test_start_overrun : after (exec .start sentFour) = { sentFour with faultCode := 2 } := by decide

/-- 42 R185: APPEND 0x41 after START. -/
theorem test_append : let t := after (exec (.append 0x41) { opened [] with txCrc := 0x8B8F })
    t.out = [.emit 0x41] ∧ t.txCrc = 0x2FF9 ∧ (t.slot 0).len = 1 ∧ (t.slot 0).payload.read 0 = 0x41 := by decide

/-- 42 R185: a reserved value is stored as it is and emitted escaped. -/
theorem test_append_escaped : let t := after (exec (.append 0x7E) (opened []))
    t.out = [.emit 0x7D, .emit 0x5E] ∧ (t.slot 0).payload.read 0 = 0x7E := by decide

/-- 42 R189: FINISH emits the trailer `F9 2F`, the delimiter, `FL` and `ARM:20`. -/
theorem test_finish : let t := after (exec .finish { opened [0x41] with txCrc := 0x2FF9 })
    t.out = [.emit 0xF9, .emit 0x2F, .emit 0x7E, .flush, .arm 20] ∧ t.txSeq = 1 ∧ t.timerArmed = true
      ∧ (t.slot 0).status = .sent ∧ t.txCrc = 0x2FF9 := by decide

/-- 42 R189: with the timer armed no `Arm` is emitted; the open packet of sequence 1 is stamped `now`. -/
theorem test_finish_armed : let t := after (exec .finish
      { sentOne with now := 9, slots := [slotWith .sent 0 [0x41], slotWith .preparing 0 [], Slot.reset, Slot.reset] })
    t.out.getLast? = some .flush ∧ (t.slot 1).time = 9 := by decide

/-- 42 R194: AVAIL from reset, and with `ACK_SEQ = 2`, `TX_SEQ = 4`. -/
theorem test_avail : (after (exec .avail fresh)).out = [.avail 4] := by decide
theorem test_avail_two : (after (exec .avail { fresh with ackSeq := 2, txSeq := 4 })).out = [.avail 2] := by decide

/-- 45 R286: `@20 TICK` retransmits `7E 80 41 F9 2F 7E` and re-arms. -/
theorem test_tick : let t := after (exec .tick { sentOne with now := 20 })
    t.out = [0x7E, 0x80, 0x41, 0xF9, 0x2F, 0x7E].map Event.emit ++ [.flush, .arm 20] ∧ (t.slot 0).time = 20 := by decide

/-- 45 R289: a stale tick. -/
theorem test_tick_stale : after (exec .tick fresh) = fresh := by decide

/-- 45 R280: `@25 AckUpto(1)`: `CAN`, slot 0 NONE, the timer disarmed. -/
theorem test_ack_all : let t := { sentOne with now := 25 }.ackUpto 1
    t.out = [.cancel] ∧ t.ackSeq = 1 ∧ t.timerArmed = false ∧ (t.slot 0).status = .none := by decide

/-- 45 R280, by hand: of sends at 5, 6 and 7 the earliest is 5 old at time 10, so the timer is re-armed for 20 − 5. -/
theorem test_ack_rearms : ({ sentFour with now := 10 }.ackUpto 1).out = [.cancel, .arm 15] := by decide

/-! ### Memory -/

/-- Writing the value an unlisted byte reads as removes the entry, so that equal memories are equal data. -/
theorem test_memory_canonical : ((Memory.empty.write 3 0x41).write 3 0) = Memory.empty := by decide
theorem test_memory_sorted :
    ((Memory.empty.write 3 0x41).write 1 0x42) = ((Memory.empty.write 1 0x42).write 3 0x41) := by decide

/-! ### Port, lines, debug read-out -/

/-- The very next step runs the word placed at the port. -/
theorem test_fetch : after (step (State.reset.withFetchWord 16 0x0300)) = after (exec .start State.reset) := by decide

/-- 30 R103: an illegal word. -/
theorem test_illegal_word : let t := after (step (fresh.offer 0x0807))
    t.faultCode = 7 ∧ t.faultInfo = 0x08 ∧ t.port = [] := by decide

/-- 30 R113, R114: `@5 SEND 41` and then `TICK`, which uses the last time given. -/
theorem test_assemble : assemble 0 [⟨some 5, .send [0x41]⟩, ⟨none, .command .tick⟩]
    = [⟨0x0300, 5⟩, ⟨0x0441, 5⟩, ⟨0x0500, 5⟩, ⟨0x0700, 5⟩] := by decide

/-- 30 R115, R113: text of events and words. -/
theorem test_event_text : (eventText (.emit 0x7E)).toList = "E:7E".toList := by decide
theorem test_deliver_text : (eventText (.deliver [0x41, 0x0F])).toList = "D:[41 0F]".toList := by decide
theorem test_word_text : (wordText (encode (.feed 0x0A))).toList = "020A".toList := by decide

/-- 10 R30: register numbers of the debug read-out. -/
theorem test_debug : sentOne.debugRead 0x10 = some 2 ∧ sentOne.debugRead 0x13 = some 0
    ∧ sentOne.debugRead 0x08 = some 1 ∧ sentOne.debugRead 0x0B = none := by decide

/-! ### Witnesses: states and operands that meet an obligation's hypotheses, for each clause at a boundary value -/

/-- A packet open with a full slot (`SLOT_LEN = MAX_PAYLOAD`), and with room for one more byte. -/
def openedFull : State := opened [0x41, 0x42]
def openedRoom : State := opened [0x41]

/-- The same instance with a policy or switch changed. -/
def policies (p : Params) (s : State) : State := { s with params := p }

/-- Closed-frame states: a data frame in order, one ahead of a gap, an ACK-only frame that acknowledges `sentFour`'s first. -/
def dataReady : State := receiving [0x80, 0x41, 0xF9, 0x2F]
def aheadReady : State := { dataReady with rxSeq := 1 }
def ackReady : State := { receiving (withTrailer .standard [0x08]) with txSeq := 1, timerArmed := true, slots := sentOne.slots }

theorem wit_IllegalWordRaisesFault : (fresh.offer 0x0301).port = ⟨0x0301, 0⟩ :: [] ∧ (fresh.offer 0x0301).faultCode = 0
    ∧ ¬ CmdWord.legal 0x0301 := by decide
theorem wit_StepRunsDecodedCommand : (stuck.offer 0x02FF).port = ⟨0x02FF, 0⟩ :: [] ∧ decode 0x02FF = .ok (.feed 0xFF) := by
  decide
theorem wit_IdleStepKeepsState : sentOne.port = [] := by decide
theorem wit_OnlyInit_taken : (stuck.offer 0x0100).port = ⟨0x0100, 0⟩ :: [] ∧ (stuck.offer 0x0100).faultCode ≠ 0 := by decide
theorem wit_OnlyInit_refused : (stuck.offer 0x0101).port = ⟨0x0101, 0⟩ :: [] ∧ (stuck.offer 0x0101).faultCode ≠ 0
    ∧ (0x0101 : CmdWord) ≠ 0x0100 := by decide
theorem wit_ResetMeetsInvariants : small.wellFormed := by decide
theorem wit_InitGivesPowerOnState : sentFour.slots.length = sentFour.params.window.size := by decide
theorem wit_SingleBitFlipDetected : 1 < [0xFF#8, 0xFF#8].length ∧ 7 < 8 ∧ crcOf .standard [0xFF, 0xFF] = 0 := by decide
theorem wit_EscapeRoundTrip : let s := receiving [0x80, 1, 2, 3]
    s.params.wellFormed ∧ s.faultCode = 0 ∧ s.frameState = .inFrame ∧ s.rxLen < s.params.rxBufSize
      ∧ s.rxLen + 1 = s.params.rxBufSize ∧ s.rxLen + [0x7E#8].length = s.params.rxBufSize := by decide
theorem wit_WireLengthBounds : [0x7E#8, 0x7D#8, 0x41#8].length = 0 + 3 := by decide
theorem wit_StuffingIsInjective : small.wellFormed ∧ [0x7E#8].flatMap (esc small) = [0x7E#8].flatMap (esc small) := by decide

theorem wit_Start_open : (opened []).faultCode = 0 ∧ ((opened []).slot ((opened []).slotOf (opened []).txSeq)).status = .preparing := by
  decide
theorem wit_Start_full : let s := sentFour
    s.faultCode = 0 ∧ (s.slot (s.slotOf s.txSeq)).status ≠ .preparing ∧ (s.txSeq - s.ackSeq).toNat = s.params.window.size := by
  decide
theorem wit_Start_runs : let s := { sentFour with ackSeq := 1, slots := Slot.reset :: sentFour.slots.tail }
    s.faultCode = 0 ∧ (s.slot (s.slotOf s.txSeq)).status ≠ .preparing ∧ (s.txSeq - s.ackSeq).toNat ≠ s.params.window.size
      ∧ (s.txSeq - s.ackSeq).toNat + 1 = s.params.window.size := by decide
theorem wit_Append_closed : let s := fresh
    s.faultCode = 0 ∧ (s.slot (s.slotOf s.txSeq)).status ≠ .preparing := by decide
theorem wit_Append_full : let s := openedFull
    s.faultCode = 0 ∧ (s.slot (s.slotOf s.txSeq)).status = .preparing
      ∧ (s.slot (s.slotOf s.txSeq)).len = s.params.maxPayload := by decide
theorem wit_Append_runs : let s := openedRoom
    s.faultCode = 0 ∧ (s.slot (s.slotOf s.txSeq)).status = .preparing
      ∧ (s.slot (s.slotOf s.txSeq)).len + 1 = s.params.maxPayload := by decide
theorem wit_Finish_closed : let s := sentFour
    s.faultCode = 0 ∧ (s.slot (s.slotOf s.txSeq)).status ≠ .preparing := by decide
theorem wit_Finish_runs : let s := opened []
    s.faultCode = 0 ∧ (s.slot (s.slotOf s.txSeq)).status = .preparing := by decide
theorem wit_Avail : sentFour.faultCode = 0 ∧ (sentFour.txSeq - sentFour.ackSeq).toNat ≤ sentFour.params.window.size := by decide
theorem wit_AvailCounts_start : fresh.faultCode = 0 ∧ ∃ t, exec .start fresh = .next t := ⟨rfl, exec_next fresh .start⟩
theorem wit_AvailCounts_finish : (opened []).faultCode = 0 ∧ (opened []).outstanding < (opened []).params.window.size
    ∧ (after (exec .finish (opened []))).faultCode = 0 := by decide
theorem wit_SendEmitsWholeFrame : let s := { sentFour with ackSeq := 1, slots := Slot.reset :: sentFour.slots.tail }
    s.slots.length = s.params.window.size ∧ s.faultCode = 0 ∧ s.txOpen = false ∧ s.outstanding ≠ s.params.window.size
      ∧ [0x7E#8, 0x41#8].length = s.params.maxPayload := by decide
theorem wit_AppendsFaultKeepsPrefix : let s := opened []
    s.slots.length = s.params.window.size ∧ s.faultCode = 0 ∧ s.txOpen = true ∧ (s.slot (s.slotOf s.txSeq)).len = 0
      ∧ s.params.maxPayload < [1#8, 2#8, 3#8].length := by decide

theorem wit_FeedOutside_opens : let s := fresh
    s.faultCode = 0 ∧ s.frameState = .outsideFrame ∧ (0x7E : Byte) = s.params.frameByte := by decide
theorem wit_FeedOutside_fatal : let s := fresh
    s.faultCode = 0 ∧ s.frameState = .outsideFrame ∧ (0x7D : Byte) ≠ s.params.frameByte ∧ s.params.outsidePolicy = .fatal := by
  decide
theorem wit_FeedOutside_resync : let s := policies { small with outsidePolicy := .resync } fresh
    s.faultCode = 0 ∧ s.frameState = .outsideFrame ∧ (0x7F : Byte) ≠ s.params.frameByte ∧ s.params.outsidePolicy = .resync := by
  decide
theorem wit_FeedInside_escape : let s := receiving []
    s.faultCode = 0 ∧ s.frameState = .inFrame ∧ (0x7D : Byte) ≠ s.params.frameByte ∧ (0x7D : Byte) = s.params.escapeByte := by
  decide
theorem wit_FeedInside_fits : let s := receiving [0x80, 1, 2, 3]
    s.faultCode = 0 ∧ s.frameState = .inFrame ∧ (0x41 : Byte) ≠ s.params.frameByte ∧ (0x41 : Byte) ≠ s.params.escapeByte
      ∧ s.rxLen + 1 = s.params.rxBufSize := by decide
theorem wit_FeedInside_drops : let s := receiving [0x80, 1, 2, 3, 4]
    s.faultCode = 0 ∧ s.frameState = .inFrame ∧ (0x41 : Byte) ≠ s.params.frameByte ∧ (0x41 : Byte) ≠ s.params.escapeByte
      ∧ ¬ s.rxLen < s.params.rxBufSize ∧ s.params.rxOverflowPolicy = .drop := by decide
theorem wit_FeedInside_faults : let s := policies { small with rxOverflowPolicy := .fault } (receiving [0x80, 1, 2, 3, 4])
    s.faultCode = 0 ∧ s.frameState = .inFrame ∧ (0x41 : Byte) ≠ s.params.frameByte ∧ (0x41 : Byte) ≠ s.params.escapeByte
      ∧ ¬ s.rxLen < s.params.rxBufSize ∧ s.params.rxOverflowPolicy = .fault := by decide
theorem wit_FeedEscaped_fits : let s := { receiving [0x80, 1, 2, 3] with frameState := .inFrameEscaped }
    s.faultCode = 0 ∧ s.frameState = .inFrameEscaped ∧ s.rxLen + 1 = s.params.rxBufSize := by decide
theorem wit_FeedEscaped_drops : let s := { receiving [0x80, 1, 2, 3, 4] with frameState := .inFrameEscaped }
    s.faultCode = 0 ∧ s.frameState = .inFrameEscaped ∧ ¬ s.rxLen < s.params.rxBufSize
      ∧ s.params.rxOverflowPolicy = .drop := by decide
theorem wit_FeedEscaped_faults : let s := { policies { small with rxOverflowPolicy := .fault } (receiving [0x80, 1, 2, 3, 4]) with
      frameState := .inFrameEscaped }
    s.faultCode = 0 ∧ s.frameState = .inFrameEscaped ∧ ¬ s.rxLen < s.params.rxBufSize
      ∧ s.params.rxOverflowPolicy = .fault := by decide
theorem wit_Closing_overflowed : let s := { receiving [0x80, 1, 2, 3, 4] with rxOvf := true }
    s.faultCode = 0 ∧ s.frameState = .inFrame ∧ s.rxOvf = true := by decide
theorem wit_Closing_spurious : let s := receiving [0xFF]
    s.faultCode = 0 ∧ s.frameState = .inFrame ∧ s.rxLen < 2 := by decide
theorem wit_Closing_invalid : let s := receiving [0x80, 0x41, 0xF9, 0x2E]
    s.faultCode = 0 ∧ s.frameState = .inFrame ∧ s.rxCrc ≠ 0 := by decide
theorem wit_Closing_short : let s := receiving [0xFF, 0xFF]
    s.faultCode = 0 ∧ s.frameState = .inFrame ∧ s.rxLen = 2 ∧ s.rxCrc = 0 ∧ s.params.shortFramePolicy = .drop := by decide
theorem wit_Closing_short_fault : let s := policies { small with shortFramePolicy := .fault } (receiving [0xFF, 0xFF])
    s.faultCode = 0 ∧ s.frameState = .inFrame ∧ s.rxOvf = false ∧ s.rxCrc = 0 ∧ s.rxLen = 2
      ∧ s.params.shortFramePolicy = .fault := by decide
theorem wit_Data_valid : dataReady.closesValidFrame dataReady.params.frameByte := ⟨rfl, rfl, by decide, rfl, by decide⟩
theorem wit_Data_inOrder : dataReady.faultCode = 0 ∧ dataReady.rxBuf.read 0 = 0x80 ∧ (0x80 : Byte).getLsbD 7 = true
    ∧ (0x80 : Byte).extractLsb' 0 3 = dataReady.rxSeq := by decide
theorem wit_Data_outOfOrder_valid : aheadReady.closesValidFrame aheadReady.params.frameByte := ⟨rfl, rfl, by decide, rfl, by decide⟩
theorem wit_Data_outOfOrder : aheadReady.faultCode = 0 ∧ aheadReady.rxBuf.read 0 = 0x80 ∧ (0x80 : Byte).getLsbD 7 = true
    ∧ (0x80 : Byte).extractLsb' 0 3 ≠ aheadReady.rxSeq := by decide
theorem wit_Ack_valid : ackReady.closesValidFrame ackReady.params.frameByte := ⟨rfl, rfl, by decide, rfl, by decide⟩
theorem wit_Ack : ackReady.faultCode = 0 ∧ ackReady.rxBuf.read 0 = 0x08 ∧ (0x08 : Byte).getLsbD 7 = false := by decide
theorem wit_AckUpto_duplicate : sentFour.slots.length = sentFour.params.window.size ∧ ((0 : Seq) - sentFour.ackSeq).toNat = 0 := by
  decide
theorem wit_AckUpto_outOfRange : let s := sentFour
    s.slots.length = s.params.window.size ∧ (s.txSeq - s.ackSeq).toNat < ((5 : Seq) - s.ackSeq).toNat := by decide
theorem wit_AckUpto_all : let s := sentFour
    s.slots.length = s.params.window.size ∧ ((4 : Seq) - s.ackSeq).toNat ≠ 0
      ∧ ((4 : Seq) - s.ackSeq).toNat = (s.txSeq - s.ackSeq).toNat
      ∧ ∀ i < s.params.window.size, ((s.ackUpto 4).slot i).status ≠ .sent := by decide
theorem wit_AckUpto_some : let s := { sentFour with now := 10 }
    s.slots.length = s.params.window.size ∧ ((1 : Seq) - s.ackSeq).toNat ≠ 0
      ∧ ((1 : Seq) - s.ackSeq).toNat ≤ (s.txSeq - s.ackSeq).toNat ∧ ((s.ackUpto 1).slot 1).status = .sent
      ∧ ∀ j < s.params.window.size, ((s.ackUpto 1).slot j).status = .sent →
          (s.now - ((s.ackUpto 1).slot j).time).toNat ≤ (s.now - ((s.ackUpto 1).slot 1).time).toNat := by decide
theorem wit_ElapsedIsRealTime : comparable (2 ^ 32 - 1) (2 ^ 33 - 2) ∧ { fresh with now := 0xFFFFFFFE }.now = sampleOf (2 ^ 33 - 2) := by
  decide
theorem wit_Tick_stale : fresh.faultCode = 0 ∧ ∀ sl ∈ fresh.slots, sl.status ≠ .sent := by decide
theorem wit_Tick_early : let s := { sentOne with now := 19 }
    s.faultCode = 0 ∧ (∃ sl ∈ s.slots, sl.status = .sent) ∧ (s.txSeq - s.ackSeq).toNat = 1
      ∧ (s.now - (s.slot (s.slotOf (s.ackSeq + BitVec.ofNat 3 0))).time).toNat < s.params.ackDelay.toNat := by decide
theorem wit_Tick_late : let s := { sentOne with now := 20 }
    s.faultCode = 0 ∧ 0 < (s.txSeq - s.ackSeq).toNat ∧ (s.slot (s.slotOf (s.ackSeq + BitVec.ofNat 3 0))).status = .sent
      ∧ s.params.timeoutStrict = false
      ∧ s.params.ackDelay.toNat = (s.now - (s.slot (s.slotOf (s.ackSeq + BitVec.ofNat 3 0))).time).toNat := by decide
theorem wit_Tick_late_strict : let s := policies { small with timeoutStrict := true } { sentOne with now := 21 }
    s.faultCode = 0 ∧ s.params.timeoutStrict = true
      ∧ s.params.ackDelay.toNat < (s.now - (s.slot (s.slotOf (s.ackSeq + BitVec.ofNat 3 0))).time).toNat := by decide

/-- A state with an outstanding packet that meets the invariants, one with an open packet, and a step from it. -/
theorem wit_Inv_sent : sentOne.Inv := by constructor <;> decide
theorem wit_Inv_full : sentFour.Inv := by constructor <;> decide
theorem wit_Inv_open : (openedRoom.offer 0x0500).Inv := by constructor <;> decide
theorem wit_Inv_step : ∃ t, step (openedRoom.offer 0x0500) = .next t := exec_next _ .finish
theorem wit_LateTick : let s := { sentOne with now := 20 }
    s.faultCode = 0 ∧ 0 < s.outstanding ∧ comparable 0 20 ∧ s.now = sampleOf 20
      ∧ (s.slot (s.slotOf s.ackSeq)).time = sampleOf 0
      ∧ 0 + s.params.ackDelay.toNat + (if s.params.timeoutStrict then 1 else 0) ≤ 20 := by decide
theorem wit_LateTick_inv : { sentOne with now := 20 }.Inv := by constructor <;> decide

/-- Each fault of 60 R320 that a command raises. -/
theorem wit_Fault_outside : fresh.faultCode = 0 ∧ (after (exec (.feed 0x41) fresh)).faultCode = 1 := by decide
theorem wit_Fault_overrun : sentFour.faultCode = 0 ∧ (after (exec .start sentFour)).faultCode = 2 := by decide
theorem wit_Fault_open : openedFull.faultCode = 0 ∧ (after (exec .start openedFull)).faultCode = 3 := by decide
theorem wit_Fault_closed : (after (exec (.append 0) fresh)).faultCode = 4 ∧ (after (exec .finish fresh)).faultCode = 4 := by decide
theorem wit_Fault_payload : (after (exec (.append 0) openedFull)).faultCode = 5 := by decide
theorem wit_Fault_buffer : (after (exec (.feed 0)
    (policies { small with rxOverflowPolicy := .fault } (receiving [0x80, 1, 2, 3, 4])))).faultCode = 6 := by decide
theorem wit_Fault_short : (after (exec (.feed 0x7E)
    (policies { small with shortFramePolicy := .fault } (receiving [0xFF, 0xFF])))).faultCode = 8 := by decide

/-- Every command answers a next state in every state: the hypothesis of the frames and of the whole-machine rules. -/
theorem wit_exec (i : Instr) (s : State) : ∃ t, exec i s = .next t := exec_next s i
theorem wit_TxSeq_moves : (after (exec .finish (opened []))).txSeq ≠ (opened []).txSeq
    ∧ (after (exec .init sentOne)).txSeq ≠ sentOne.txSeq := by decide
theorem wit_RxSeq_moves : (after (exec (.feed 0x7E) dataReady)).rxSeq ≠ dataReady.rxSeq := by decide
theorem wit_AckSeq_moves : (after (exec (.feed 0x7E) ackReady)).ackSeq ≠ ackReady.ackSeq := by decide
theorem wit_Deliver : (after (exec (.feed 0x7E) dataReady)).out.countP Event.isDeliver = 1 := by decide
theorem wit_Timer_cancel : Event.cancel ∈ (after (exec (.feed 0x7E) ackReady)).out := by decide
theorem wit_Timer_arm : Event.arm 20 ∈ (after (exec .finish (opened []))).out ∧ Event.arm 20 ∈ (after (exec .tick sentOne)).out := by
  decide
theorem wit_TxCrc_dataFrame : dataReady.closesValidFrame 0x7E ∧ dataReady.faultCode = 0 ∧ (dataReady.rxBuf.read 0).getLsbD 7 = true :=
  ⟨wit_Data_valid, by decide, by decide⟩
theorem wit_TxCrc_ackFrame : ackReady.faultCode = 0 ∧ (ackReady.rxBuf.read 0).getLsbD 7 ≠ true := by decide
theorem wit_TxCrc_shared : (after (exec (.feed 0x7E) { dataReady with txCrc := 0x8B8F })).txCrc ≠ 0x8B8F := by decide
theorem wit_OutsideFrameOnlyByReset : dataReady.frameState ≠ .outsideFrame
    ∧ (after (exec .init dataReady)).frameState = .outsideFrame ∧ dataReady.faultCode = 0 := by decide

/-- A packet sent from `fresh` at time 0, and at time 20 the state it left, in which a TICK retransmits it. -/
theorem wit_Retransmission : let s₀ := fresh
    let t₀ := after (execAll (send [0x41, 0x7E]) s₀)
    let s := { t₀ with now := 20 }
    s₀.params.wellFormed ∧ s₀.slots.length = s₀.params.window.size ∧ s₀.faultCode = 0 ∧ s₀.txOpen = false
      ∧ s₀.outstanding ≠ s₀.params.window.size ∧ [0x41#8, 0x7E#8].length ≤ s₀.params.maxPayload
      ∧ execAll (send [0x41, 0x7E]) s₀ = .next t₀ ∧ s.params = s₀.params ∧ s.faultCode = 0
      ∧ s.oldestOverdue = some s₀.txSeq
      ∧ (s.slot (s.slotOf s₀.txSeq)).len = (t₀.slot (s₀.slotOf s₀.txSeq)).len ∧ s.rxSeq = s₀.rxSeq := by
  refine ⟨by decide, by decide, by decide, by decide, by decide, by decide, rfl, ?_⟩
  decide

/-- START and FINISH at real time `2^32 − 1`, then a TICK 20 ms later, after the 32-bit count has wrapped. -/
def runStarted : State := after (step { fresh with port := [⟨0x0300, sampleOf (2 ^ 32 - 1)⟩] })
def runSent : State := after (step { runStarted with port := [⟨0x0500, sampleOf (2 ^ 32 - 1)⟩] })
def runClock : Clock := { draws := [2 ^ 32 - 1, 2 ^ 32 - 1], stamps := [2 ^ 32 - 1, 0, 0, 0] }

theorem wit_Run : Run runSent runClock := by
  have h₁ : Run runStarted { draws := [2 ^ 32 - 1], stamps := [0, 0, 0, 0] } :=
    .take (.powerOn small wit_ResetMeetsInvariants) 0x0300 (2 ^ 32 - 1)
      ⟨by decide, fun i k h hc => by cases h; exact hc.2.elim⟩ rfl
  exact .take h₁ 0x0500 (2 ^ 32 - 1) ⟨by decide, fun i k h hc => by cases h; exact hc.2.elim⟩ rfl

theorem wit_Run_tick : runClock.admits runSent 0x0700 (2 ^ 32 + 19) ∧ decode 0x0700 = .ok .tick
    ∧ (runSent.sampledAt (2 ^ 32 + 19)).comparesTime .tick 0 := by
  refine ⟨⟨by decide, fun i k h hc => ?_⟩, rfl, by decide, by decide, 0, by decide, by decide, by decide⟩
  cases h
  obtain ⟨-, -, n, hn, rfl, -⟩ := hc
  obtain rfl : n = 0 := by
    have : (runSent.sampledAt (2 ^ 32 + 19)).outstanding = 1 := by decide
    omega
  decide

/-- A FEED that closes an ACK-only frame compares the times of the slots it leaves SENT. -/
def ackPartly : State := { receiving (withTrailer .standard [0x08]) with txSeq := 4, timerArmed := true, slots := sentFour.slots }
theorem wit_Run_feed : ackPartly.comparesTime (.feed 0x7E) 1 ∧ ¬ ackPartly.comparesTime (.feed 0x7E) 0 :=
  ⟨⟨by decide, ⟨rfl, rfl, by decide, rfl, by decide⟩, .inl (by decide), by decide, by decide⟩,
    fun h => absurd h.2.2.2.2 (by decide)⟩

/-- Two different states that agree: they differ in the byte past `RX_LEN` and the byte past `SLOT_LEN[0]`. -/
theorem wit_Unwritten : (sentOne.offer 0x0700).agrees
      { sentOne.offer 0x0700 with
        rxBuf := bufWith [0x55]
        slots := { slotWith .sent 0 [0x41, 0x55] with len := 1 } :: List.replicate 3 Slot.reset }
    ∧ (sentOne.offer 0x0700).rxBuf ≠ bufWith [0x55] := by
  refine ⟨⟨rfl, ?_, by decide⟩, by decide⟩
  refine .cons ⟨rfl, rfl, rfl, by decide⟩ (.cons ?_ (.cons ?_ (.cons ?_ .nil)))
  all_goals exact ⟨rfl, rfl, rfl, by decide⟩

theorem wit_SentFrame_first : let s := fresh
    s.params.wellFormed ∧ s.faultCode = 0 ∧ s.params.piggybackOnData = false
      ∧ [0x7E#8, 0x7D#8].length + 3 = s.params.rxBufSize ∧ s.frameState = .outsideFrame := by decide
theorem wit_SentFrame_later : let s := receiving [0xFF]
    s.params.wellFormed ∧ s.faultCode = 0 ∧ s.params.piggybackOnData = false
      ∧ ([] : List Byte).length + 3 ≤ s.params.rxBufSize ∧ s.frameState = .inFrame ∧ s.rxLen < 2 ∧ s.rxOvf = false := by decide
theorem wit_SentAckIsProcessed : let s := receiving [0xFF]
    s.params.wellFormed ∧ s.faultCode = 0 ∧ s.frameState = .inFrame ∧ s.rxLen < 2 ∧ s.rxOvf = false := by decide
theorem wit_OnlyFinishLowersAvail : sentFour.Inv ∧ ∃ t, exec .tick sentFour = .next t := ⟨wit_Inv_full, exec_next _ .tick⟩
theorem wit_Debug_absent : let s := policies { small with window := .one } fresh
    s.params.window.size ≤ 1 ∧ 1 < 4 ∧ 0 < s.params.window.size ∧ 0x1C ≤ (0x1C : Byte).toNat
      ∧ 0x0A < (0x0B : Byte).toNat ∧ (0x0F : Byte).toNat < 0x10 := by decide

end Sys2Proof.Tests
end

section
/-! PROOFS. The CRC engine (40 R142, R143, R148): the residue law of every `CRC_UPDATE`, and the default recurrence as eight bit steps.

The default recurrence sees its byte only through `b ^ c[7:0]`; the high byte of `c` is carried down unchanged. So a byte equal to
`c[7:0]` only shifts `c` right by a byte, which gives (L2); and the bit-serial form, being additive, splits in the same way. -/

namespace Sys2Proof.Machine

/-! ### The default recurrence -/

theorem crcUpdateDefault_eq_high_xor (c : Crc) (b : Byte) :
    crcUpdateDefault c b = (crcHigh c).setWidth 16 ^^^ crcUpdateDefault 0 (b ^^^ crcLow c) := by
  ext i hi
  grind [crcUpdateDefault, crcLow, crcHigh]

@[simp] theorem crcUpdateDefault_zero_zero : crcUpdateDefault 0 0#8 = 0#16 := by decide

theorem crcUpdateDefault_crcLow (c : Crc) : crcUpdateDefault c (crcLow c) = (crcHigh c).setWidth 16 := by
  rw [crcUpdateDefault_eq_high_xor, BitVec.xor_self, crcUpdateDefault_zero_zero, BitVec.xor_zero]

@[simp] theorem crcLow_setWidth (b : Byte) : crcLow (b.setWidth 16) = b := by
  ext i hi
  grind [crcLow]

@[simp] theorem crcHigh_setWidth (b : Byte) : crcHigh (b.setWidth 16) = 0 := by
  ext i hi
  grind [crcHigh]

/-- 40 R148, first sentence: each trailer byte equals the low byte of the running CRC, so two updates shift it out. -/
theorem crcUpdateDefault_meetsZeroResidue : meetsZeroResidue crcUpdateDefault := fun c =>
  calc crcUpdateDefault (crcUpdateDefault c (crcLow c)) (crcHigh c)
    _ = crcUpdateDefault ((crcHigh c).setWidth 16) (crcLow ((crcHigh c).setWidth 16)) := by
      rw [crcUpdateDefault_crcLow, crcLow_setWidth]
    _ = (0 : Byte).setWidth 16 := by rw [crcUpdateDefault_crcLow, crcHigh_setWidth]
    _ = 0 := rfl

/-! ### The law of every `CRC_UPDATE` -/

theorem crcUpdate_other_of_meets {n : Nat} (h : meetsZeroResidue (Config.crcUpdateOpen n)) :
    crcUpdate (.other n) = Config.crcUpdateOpen n := by
  funext c b
  exact if_pos h

theorem crcUpdate_other_of_not_meets {n : Nat} (h : ¬ meetsZeroResidue (Config.crcUpdateOpen n)) :
    crcUpdate (.other n) = crcUpdateDefault := by
  funext c b
  exact if_neg h

/-- 40 R143 (L2). -/
theorem crcUpdate_meetsZeroResidue : (u : CrcUpdate) → meetsZeroResidue (crcUpdate u)
  | .standard => crcUpdateDefault_meetsZeroResidue
  | .other n => by
    by_cases h : meetsZeroResidue (Config.crcUpdateOpen n)
    · rwa [crcUpdate_other_of_meets h]
    · rw [crcUpdate_other_of_not_meets h]
      exact crcUpdateDefault_meetsZeroResidue

/-! ### The bit-serial form -/

theorem crcBitStep_eq_xor (c : Crc) : crcBitStep c = (c >>> 1) ^^^ (if c.getLsbD 0 then 0x8408 else 0) := by
  unfold crcBitStep
  split <;> simp

theorem crcBitStep_xor (x y : Crc) : crcBitStep (x ^^^ y) = crcBitStep x ^^^ crcBitStep y := by
  have mask_xor : ∀ p q : Bool, (if p ^^ q then (0x8408 : Crc) else 0)
      = (if p then 0x8408 else 0) ^^^ (if q then 0x8408 else 0) := by decide
  simp only [crcBitStep_eq_xor, BitVec.getLsbD_xor, BitVec.ushiftRight_xor_distrib, mask_xor]
  ac_rfl

theorem crcBitStep_iterate_xor (n : Nat) (x y : Crc) :
    crcBitStep^[n] (x ^^^ y) = crcBitStep^[n] x ^^^ crcBitStep^[n] y :=
  Function.Semiconj₂.iterate crcBitStep_xor n x y

/-- Bit steps that meet no set bit are plain shifts. -/
theorem crcBitStep_iterate_of_low_zero (n : Nat) (c : Crc) (h : ∀ i < n, c.getLsbD i = false) :
    crcBitStep^[n] c = c >>> n := by
  induction n generalizing c with
  | zero => simp
  | succ n ih =>
    have hstep : crcBitStep c = c >>> 1 := by
      rw [crcBitStep_eq_xor, h 0 n.succ_pos]
      exact BitVec.xor_zero
    have hlow : ∀ i < n, (c >>> 1).getLsbD i = false := fun i hi => by simpa using h (1 + i) (by omega)
    rw [Function.iterate_succ_apply, hstep, ih _ hlow, ← BitVec.shiftRight_add, Nat.add_comm]

/-- On the 256 values of a low byte, eight bit steps are the default recurrence from 0. -/
theorem crcBitStep_iterate_byte : ∀ d : Byte, crcBitStep^[8] (d.setWidth 16) = crcUpdateDefault 0 d := by decide

theorem crcBitStep_iterate_high (h : Byte) : crcBitStep^[8] (h.setWidth 16 <<< 8) = h.setWidth 16 := by
  rw [crcBitStep_iterate_of_low_zero 8 _ fun i hi => by simp [hi]]
  ext i hi
  grind

theorem crc_xor_byte_eq (c : Crc) (b : Byte) :
    c ^^^ b.setWidth 16 = ((crcHigh c).setWidth 16 <<< 8) ^^^ (b ^^^ crcLow c).setWidth 16 := by
  ext i hi
  grind [crcHigh, crcLow]

theorem crcUpdateBitSerial_eq_iterate (c : Crc) (b : Byte) :
    crcUpdateBitSerial c b = crcBitStep^[8] (c ^^^ b.setWidth 16) := List.foldl_const _ _ _

theorem crcUpdateDefault_eq_bitSerial (c : Crc) (b : Byte) : crcUpdateDefault c b = crcUpdateBitSerial c b := by
  rw [crcUpdateBitSerial_eq_iterate, crc_xor_byte_eq, crcBitStep_iterate_xor, crcBitStep_iterate_high,
    crcBitStep_iterate_byte, ← crcUpdateDefault_eq_high_xor]

/-- The check value of 40 R148, over `123456789`. -/
theorem crcOf_standard_check_string :
    crcOf .standard [0x31, 0x32, 0x33, 0x34, 0x35, 0x36, 0x37, 0x38, 0x39] = 0x6F91 := by decide

/-! ### The obligations -/

/-- Settles O11, by the cases of `CrcUpdate`: an open function is used only where it meets the law, the default meets it. -/
theorem crcZeroResidue : Obligations.CrcZeroResidue := crcUpdate_meetsZeroResidue

/-- Settles O12: the residue law from the shift by a byte, the bit-serial form from its additivity. -/
theorem crcDefaultIsBitSerial : Obligations.CrcDefaultIsBitSerial :=
  ⟨crcUpdateDefault_meetsZeroResidue, crcUpdateDefault_eq_bitSerial, crcOf_standard_check_string⟩

end Sys2Proof.Machine
end

section
/-! PROOFS. The escape codec (41 R160 to R168): feeding a stuffed body stores exactly the body, and a stuffed body holds no delimiter.

The receiver's round trip is a simulation: one body byte, one wire byte or two, one `State.receiveByte`. A body is then an induction
along its bytes, with the buffer's contents said by `Memory.writeBytes`. -/

namespace Sys2Proof.Machine

/-! ### `Esc` -/

theorem reserved_iff {P : Params} {v : Byte} : reserved P v = true ↔ v = P.frameByte ∨ v = P.escapeByte := by
  simp [reserved]

theorem esc_reserved {P : Params} {v : Byte} (h : v = P.frameByte ∨ v = P.escapeByte) :
    esc P v = [P.escapeByte, v ^^^ P.escapeMask] := if_pos (reserved_iff.mpr h)

theorem esc_unreserved {P : Params} {v : Byte} (h : ¬ (v = P.frameByte ∨ v = P.escapeByte)) : esc P v = [v] :=
  if_neg (reserved_iff.not.mpr h)

/-- 41 R164: the destuffer undoes the stuffer's mask. -/
@[simp] theorem unescape_xor_mask (P : Params) (v : Byte) : unescape P (v ^^^ P.escapeMask) = v := by
  rw [unescape, BitVec.xor_assoc, BitVec.xor_self, BitVec.xor_zero]

theorem frameByte_notMem_esc {P : Params} (h : P.escapeLegal) (v : Byte) : P.frameByte ∉ esc P v := by
  obtain ⟨hfe, -, hff, -, hef, -⟩ := h
  by_cases hv : v = P.frameByte ∨ v = P.escapeByte
  · rw [esc_reserved hv]
    rcases hv with rfl | rfl
    · simp [hfe, hff.symm]
    · simp [hfe, hef.symm]
  · rw [esc_unreserved hv]
    simpa using fun e => hv (.inl e.symm)

theorem frameByte_notMem_stuffed {P : Params} (h : P.escapeLegal) (body : List Byte) :
    P.frameByte ∉ body.flatMap (esc P) := fun hm => by
  obtain ⟨v, -, hv⟩ := List.mem_flatMap.mp hm
  exact frameByte_notMem_esc h v hv

theorem count_frameByte_frameWire {P : Params} (h : P.escapeLegal) (body : List Byte) :
    (frameWire P body).count P.frameByte = 2 := by
  have hbody : (body.flatMap (esc P)).count P.frameByte = 0 :=
    List.count_eq_zero.mpr (frameByte_notMem_stuffed h body)
  simp only [frameWire, List.count_append, List.count_singleton_self, hbody]

/-! ### Writing a byte string into a memory -/

/-- The memory after `body` is written at `lo` onward. -/
def Memory.writeBytes (m : Memory) (lo : Nat) : List Byte → Memory
  | [] => m
  | v :: rest => (m.write lo v).writeBytes (lo + 1) rest

theorem Memory.read_writeBytes_outside (m : Memory) (body : List Byte) {lo a : Nat}
    (h : ¬ (lo ≤ a ∧ a < lo + body.length)) : (m.writeBytes lo body).read a = m.read a := by
  induction body generalizing m lo with
  | nil => rfl
  | cons v rest ih =>
    rw [List.length_cons] at h
    rw [Memory.writeBytes, ih _ (by omega), Memory.read_write_other _ _ (by omega)]

theorem Memory.readRange_cons (m : Memory) (lo n : Nat) :
    m.readRange lo (n + 1) = m.read lo :: m.readRange (lo + 1) n := by
  simp [Memory.readRange, List.range_succ_eq_map, Nat.add_right_comm, Nat.add_assoc]

/-- A byte string reads back as it was written. -/
@[simp] theorem Memory.readRange_writeBytes (m : Memory) (lo : Nat) (body : List Byte) :
    (m.writeBytes lo body).readRange lo body.length = body := by
  induction body generalizing m lo with
  | nil => rfl
  | cons v rest ih =>
    have hhead : ((m.write lo v).writeBytes (lo + 1) rest).read lo = v := by
      rw [Memory.read_writeBytes_outside _ _ (by omega), Memory.read_write_same]
    rw [List.length_cons, Memory.writeBytes, Memory.readRange_cons, hhead, ih]

/-! ### Running a command list -/

theorem feeds_append (xs ys : List Byte) : feeds (xs ++ ys) = feeds xs ++ feeds ys := List.map_append

theorem execAll_cons_next {i : Instr} {is : List Instr} {s t : State} (h : exec i s = .next t) :
    execAll (i :: is) s = execAll is t := by
  simp only [execAll, h]

theorem execAll_append_next {is js : List Instr} {s t : State} (h : execAll is s = .next t) :
    execAll (is ++ js) s = execAll js t := by
  induction is generalizing s with
  | nil =>
    cases h
    rfl
  | cons i is ih =>
    obtain ⟨u, hu⟩ := exec_next s i
    rw [execAll_cons_next hu] at h
    rw [List.cons_append, execAll_cons_next hu, ih h]

/-! ### Feeding the wire form of one byte -/

variable (s : State)

/-- The state after `RxAppend(v)` with room in the buffer (43 R227). -/
def State.receiveByte (v : Byte) : State :=
  { s with
    rxBuf := s.rxBuf.write s.rxLen v
    rxLen := s.rxLen + 1
    rxCrc := crcUpdate s.params.crcUpdate s.rxCrc v }

@[simp] theorem State.receiveByte_rxLen (v : Byte) : (s.receiveByte v).rxLen = s.rxLen + 1 := rfl
@[simp] theorem State.receiveByte_params (v : Byte) : (s.receiveByte v).params = s.params := rfl

theorem State.feedByte_escape (hs : s.frameState = .inFrame) (h : s.params.escapeByte ≠ s.params.frameByte) :
    s.feedByte s.params.escapeByte = .ok { s with frameState := .inFrameEscaped } := by
  simp [State.feedByte, hs, h]

theorem State.feedByte_literal {v : Byte} (hs : s.frameState = .inFrame)
    (hv : ¬ (v = s.params.frameByte ∨ v = s.params.escapeByte)) (hroom : s.rxLen < s.params.rxBufSize) :
    s.feedByte v = .ok (s.receiveByte v) := by
  obtain ⟨hf, he⟩ := not_or.mp hv
  simp only [State.feedByte, hs, if_neg hf, if_neg he, s.rxAppend_fits hroom, State.receiveByte]

theorem State.feedByte_escaped (v : Byte) (hs : s.frameState = .inFrameEscaped)
    (hroom : s.rxLen < s.params.rxBufSize) :
    s.feedByte (v ^^^ s.params.escapeMask) = .ok { s.receiveByte v with frameState := .inFrame } := by
  simp [State.feedByte, hs, s.rxAppend_fits hroom, State.receiveByte, Except.map]

variable {s}

/-- 41 R165 for one byte: its wire form, two wire bytes or one, appends the byte. -/
theorem execAll_feeds_esc (hP : s.params.escapeLegal) (hok : s.faultCode = 0) (hs : s.frameState = .inFrame) (v : Byte)
    (hroom : s.rxLen < s.params.rxBufSize) :
    execAll (feeds (esc s.params v)) s = .next (s.receiveByte v) := by
  by_cases hv : v = s.params.frameByte ∨ v = s.params.escapeByte
  · have hesc := exec_feed_ok s hok (s.feedByte_escape hs hP.1.symm)
    have happ := exec_feed_ok { s with frameState := .inFrameEscaped } hok (State.feedByte_escaped _ v rfl hroom)
    rw [esc_reserved hv, feeds, List.map_cons, List.map_singleton, execAll_cons_next hesc, execAll_cons_next happ]
    simp [execAll, State.receiveByte, hs]
  · have happ := exec_feed_ok s hok (s.feedByte_literal hs hv hroom)
    rw [esc_unreserved hv, feeds, List.map_singleton, execAll_cons_next happ]
    rfl

/-! ### Feeding the wire form of a body -/

/-- The state after `RxAppend` of each byte of `body`, with room for all of them (43 R227). -/
def State.receiveBytes (s : State) (body : List Byte) : State :=
  { s with
    rxBuf := s.rxBuf.writeBytes s.rxLen body
    rxLen := s.rxLen + body.length
    rxCrc := body.foldl (crcUpdate s.params.crcUpdate) s.rxCrc }

theorem State.receiveBytes_cons (s : State) (v : Byte) (rest : List Byte) :
    s.receiveBytes (v :: rest) = (s.receiveByte v).receiveBytes rest := by
  simp [State.receiveBytes, State.receiveByte, Memory.writeBytes, Nat.add_assoc, Nat.add_comm 1]

/-- 41 R165 for a body that fits. -/
theorem execAll_feeds_stuffed (hP : s.params.escapeLegal) (hok : s.faultCode = 0) (hs : s.frameState = .inFrame)
    (body : List Byte) (hroom : s.rxLen + body.length ≤ s.params.rxBufSize) :
    execAll (feeds (body.flatMap (esc s.params))) s = .next (s.receiveBytes body) := by
  induction body generalizing s with
  | nil => rfl
  | cons v rest ih =>
    rw [List.length_cons] at hroom
    have hv := execAll_feeds_esc hP hok hs v (by omega)
    have hfits : (s.receiveByte v).rxLen + rest.length ≤ s.params.rxBufSize := by
      rw [State.receiveByte_rxLen]
      omega
    rw [List.flatMap_cons, feeds_append, execAll_append_next hv, State.receiveBytes_cons]
    exact ih (s := s.receiveByte v) hP hok hs hfits

/-! ### The obligations -/

/-- Settles O16: one byte by its two wire forms, a body by induction along its bytes. -/
theorem escapeRoundTrip : Obligations.EscapeRoundTrip := by
  intro s hP hok hs
  refine ⟨execAll_feeds_esc hP.1 hok hs, fun body hroom => ?_⟩
  exact ⟨_, execAll_feeds_stuffed hP.1 hok hs body hroom, rfl, Memory.readRange_writeBytes _ _ _,
    fun _ => Memory.read_writeBytes_outside _ _⟩

/-- Settles O17: the constraints of R14 keep the delimiter out of every `Esc(v)`. -/
theorem stuffedBodyHasNoDelimiter : Obligations.StuffedBodyHasNoDelimiter := fun _ body hP =>
  ⟨frameByte_notMem_stuffed hP.1 body, rfl, count_frameByte_frameWire hP.1 body⟩

end Sys2Proof.Machine
end

section
/-! PROOFS. The TX window manager (42 R180 to R195): the rules of START, APPEND, FINISH and AVAIL, what AVAIL counts, and the one
command besides INIT that moves `TX_SEQ`. -/

namespace Sys2Proof.Machine

/-! ### The command words -/

/-- 30 R100: APPEND's operand byte lies below its opcode. -/
theorem encode_append (b : Byte) : encode (.append b) = 0x0400 ||| b.setWidth 16 := by
  rfl

/-! ### The rules, command by command -/

/-- Settles O20: the three outcomes of `State.startPacket`, each under its condition. -/
theorem startFollowsRule : Obligations.StartFollowsRule := by
  refine ⟨rfl, fun s hok => ⟨fun hopen => ?_, fun hclosed hfull => ?_, fun hclosed hroom => ?_⟩⟩
  · exact exec_start_error s hok (s.startPacket_open (s.txOpen_iff.mpr hopen))
  · exact exec_start_error s hok (s.startPacket_full (s.txOpen_eq_false.mpr hclosed) hfull)
  · exact exec_start_ok s hok (s.startPacket_ok (s.txOpen_eq_false.mpr hclosed) hroom)

/-- Settles O21: the three outcomes of `State.appendByte`, each under its condition. -/
theorem appendFollowsRule : Obligations.AppendFollowsRule := by
  refine fun s b hok => ⟨encode_append b, fun hclosed => ?_, fun hopen hfull => ?_, fun hopen hroom => ?_⟩
  · exact exec_append_error s hok (s.appendByte_closed b (s.txOpen_eq_false.mpr hclosed))
  · exact exec_append_error s hok (s.appendByte_full b (s.txOpen_iff.mpr hopen) hfull.ge)
  · exact exec_append_ok s hok (s.appendByte_ok b (s.txOpen_iff.mpr hopen) hroom)

/-- Settles O22: the two outcomes of `State.finishPacket`, each under its condition. -/
theorem finishFollowsRule : Obligations.FinishFollowsRule := by
  refine ⟨rfl, fun s hok => ⟨fun hclosed => ?_, fun hopen => ?_⟩⟩
  · exact exec_finish_error s hok (s.finishPacket_closed (s.txOpen_eq_false.mpr hclosed))
  · exact exec_finish_ok s hok (s.finishPacket_ok (s.txOpen_iff.mpr hopen))

/-- Settles O23: AVAIL's one outcome, the answer appended to the output. -/
theorem availFollowsRule : Obligations.AvailFollowsRule := ⟨rfl, exec_avail⟩

/-! ### The free window -/

theorem seqDist_seqAdd_one_left (a b : Seq) : (seqDist (seqAdd a 1) b + 1) % 8 = seqDist a b := by
  simp only [seqDist, seqAdd]
  bv_omega

theorem seqDist_seqAdd_one_right (a b : Seq) : seqDist a (seqAdd b 1) = (seqDist a b + 1) % 8 := by
  simp only [seqDist, seqAdd]
  bv_omega

/-- 42 R194: R193's formula is the window size less the outstanding packets, modulo 8. -/
theorem State.available_toNat (s : State) :
    (s.available.toNat : Int) = ((s.params.window.size : Int) - s.outstanding) % 8 := by
  have hdist := seqDist_seqAdd_one_left s.ackSeq s.txSeq
  simp only [State.available, State.outstanding, Config.seqMod, BitVec.toNat_ofNat]
  omega

theorem windowSize_lt_seqMod (w : WindowSize) : w.size < 8 := by
  cases w <;> decide

/-- 42 R194 under (I1): the answer and the outstanding packets make up the window. -/
theorem State.available_add_outstanding {s : State} (h : s.outstanding ≤ s.params.window.size) :
    s.available.toNat + s.outstanding = s.params.window.size := by
  have havail := s.available_toNat
  have hsize := windowSize_lt_seqMod s.params.window
  omega

/-! ### Which commands move `TX_SEQ` -/

variable {s t : State}

theorem State.startPacket_keeps (h : s.startPacket = .ok t) :
    t.txSeq = s.txSeq ∧ t.ackSeq = s.ackSeq ∧ t.params = s.params := by
  rcases s.startPacket_cases with ⟨-, e⟩ | ⟨-, -, e⟩ | ⟨-, -, e⟩ <;> rw [e] at h <;> cases h
  exact ⟨rfl, rfl, rfl⟩

theorem State.appendByte_txSeq {b : Byte} (h : s.appendByte b = .ok t) : t.txSeq = s.txSeq := by
  rcases s.appendByte_cases b with ⟨-, e⟩ | ⟨-, -, e⟩ | ⟨-, -, e⟩ <;> rw [e] at h <;> cases h
  rfl

/-- 42 R190: FINISH advances `TX_SEQ` by one, and touches neither `ACK_SEQ` nor the window size. -/
theorem State.finishPacket_moves (h : s.finishPacket = .ok t) :
    t.txSeq = seqAdd s.txSeq 1 ∧ t.ackSeq = s.ackSeq ∧ t.params = s.params := by
  rcases s.finishPacket_cases with ⟨-, e⟩ | ⟨-, e⟩ <;> rw [e] at h <;> cases h
  exact ⟨rfl, rfl, rfl⟩

/-- 42 R195: below a full window, the `OUT` that FINISH raises does not wrap. -/
theorem State.finishPacket_outstanding (h : s.finishPacket = .ok t) (hroom : s.outstanding < s.params.window.size) :
    t.outstanding = s.outstanding + 1 := by
  obtain ⟨htx, hack, -⟩ := State.finishPacket_moves h
  have hsize := windowSize_lt_seqMod s.params.window
  calc t.outstanding
    _ = (s.outstanding + 1) % 8 := by rw [State.outstanding, htx, hack, seqDist_seqAdd_one_right, State.outstanding]
    _ = s.outstanding + 1 := Nat.mod_eq_of_lt (by omega)

@[simp] theorem State.ackUpto_txSeq (s : State) (p : Seq) : (s.ackUpto p).txSeq = s.txSeq := by
  rw [s.ackUpto_eq p]

@[simp] theorem State.afterPiggyback_txSeq (s : State) (ctrl : Byte) : (s.afterPiggyback ctrl).txSeq = s.txSeq := by
  rw [s.afterPiggyback_eq ctrl]

@[simp] theorem State.accepted_txSeq (s : State) : s.accepted.txSeq = s.txSeq := s.afterPiggyback_txSeq _

@[simp] theorem State.reacknowledged_txSeq (s : State) : s.reacknowledged.txSeq = s.txSeq := s.afterPiggyback_txSeq _

theorem State.feedByte_txSeq {b : Byte} (h : s.feedByte b = .ok t) : t.txSeq = s.txSeq := by
  rcases s.feedByte_ok h with ⟨-, -, rfl⟩ | ⟨-, -, -, rfl⟩ | ⟨-, -, -, rfl⟩ | ⟨-, -, -, rfl⟩ | ⟨-, -, -, rfl⟩
      | ⟨-, -, rfl⟩ | ⟨-, -, -, rfl⟩ | ⟨v, -, ⟨-, rfl⟩ | ⟨-, -, rfl⟩⟩
  all_goals simp

@[simp] theorem State.checkTimeouts_txSeq (s : State) : s.checkTimeouts.txSeq = s.txSeq := by
  rcases s.checkTimeouts_cases with ⟨-, e⟩ | ⟨-, -, e⟩ | ⟨q, -, -, e⟩
  · rw [e]
  · rw [e, State.armTimer_txSeq]
  · rw [e, State.armTimer_txSeq, State.retransmit_eq]

/-- 42 R190, with INIT's reset (70 R350): a command keeps `TX_SEQ`, or it is FINISH and adds 1, or it is INIT and clears it. -/
theorem exec_txSeq {i : Instr} (h : exec i s = .next t) :
    t.txSeq = s.txSeq ∨ (i = .finish ∧ t.txSeq = seqAdd s.txSeq 1) ∨ (i = .init ∧ t.txSeq = 0) := by
  rcases exec_cases s h with ⟨hi, rfl⟩ | ⟨-, -, rfl⟩ | ⟨-, b, -, hb | ⟨r, -, rfl⟩⟩ | ⟨-, -, hb | ⟨r, -, rfl⟩⟩
      | ⟨-, b, -, hb | ⟨r, -, rfl⟩⟩ | ⟨-, hi, hb | ⟨r, -, rfl⟩⟩ | ⟨-, -, rfl⟩ | ⟨-, -, rfl⟩
  · exact .inr (.inr ⟨hi, s.initialise_txSeq⟩)
  · exact .inl rfl
  · exact .inl (State.feedByte_txSeq hb)
  · exact .inl rfl
  · exact .inl (State.startPacket_keeps hb).1
  · exact .inl rfl
  · exact .inl (State.appendByte_txSeq hb)
  · exact .inl rfl
  · exact .inr (.inl ⟨hi, (State.finishPacket_moves hb).1⟩)
  · exact .inl rfl
  · exact .inl rfl
  · exact .inl s.checkTimeouts_txSeq

/-- Settles O44: what each command does to `TX_SEQ`, with keeping it excluded. -/
theorem txSeqAdvancesOnlyInFinish : Obligations.TxSeqAdvancesOnlyInFinish :=
  fun _ _ _ h hne => (exec_txSeq h).resolve_left hne

/-! ### What AVAIL counts -/

/-- 42 R183: the answer is a function of `TX_SEQ`, `ACK_SEQ` and the window size, and START moves none of them. -/
theorem exec_start_available (h : exec .start s = .next t) : t.available = s.available := by
  rcases s.perform_cases h with ⟨-, rfl⟩ | ⟨-, hb⟩ | ⟨r, -, -, rfl⟩
  · rfl
  · obtain ⟨htx, hack, hparams⟩ := State.startPacket_keeps hb
    simp only [State.available, htx, hack, hparams]
  · rfl

/-- 42 R195: the answer and `OUT` make up the window before and after, and `OUT` rises by one. -/
theorem State.finishPacket_available (h : s.finishPacket = .ok t) (hroom : s.outstanding < s.params.window.size) :
    t.available.toNat + 1 = s.available.toNat := by
  obtain ⟨-, -, hparams⟩ := State.finishPacket_moves h
  have hout := State.finishPacket_outstanding h hroom
  have hbefore := State.available_add_outstanding hroom.le
  have hafter : t.available.toNat + t.outstanding = t.params.window.size :=
    State.available_add_outstanding (by rw [hout, hparams]; exact hroom)
  rw [hparams] at hafter
  omega

/-- Settles O25: START by its frame, FINISH by its one outcome without a fault. -/
theorem availCountsFinishedPackets : Obligations.AvailCountsFinishedPackets := by
  refine fun s t hok => ⟨exec_start_available, fun h hnofault hroom => ?_⟩
  rcases s.perform_cases h with ⟨hstuck, -⟩ | ⟨-, hb⟩ | ⟨r, -, -, rfl⟩
  · exact absurd hok hstuck
  · exact State.finishPacket_available hb hroom
  · exact absurd hnofault r.name.code_ne_zero

end Sys2Proof.Machine
end

section
/-! PROOFS. The RX frame assembler (43 R221 to R227): FEED outside a frame, inside one, and after an escape byte.

One equation per `FRAME_STATE` and kind of byte says which operation FEED runs; the clauses of an obligation are that operation's
outcomes, with and without room or under either policy. -/

namespace Sys2Proof.Machine

variable {s : State} {b : Byte}

/-! ### Outside a frame -/

/-- 43 R221: the delimiter opens a frame. -/
theorem State.feedByte_opens (hs : s.frameState = .outsideFrame) (hb : b = s.params.frameByte) :
    s.feedByte b = .ok s.startFrame := by
  simp only [State.feedByte, hs, if_pos hb]

/-- 43 R222: the event of any other byte. -/
theorem State.feedByte_outside (hs : s.frameState = .outsideFrame) (hb : b ≠ s.params.frameByte) :
    s.feedByte b = s.outsideByte b := by
  simp only [State.feedByte, hs, if_neg hb]

theorem State.outsideByte_fatal (hp : s.params.outsidePolicy = .fatal) :
    s.outsideByte b = .error ⟨.outsideFrameByte, b⟩ := by
  simp only [State.outsideByte, hp]

theorem State.outsideByte_resync (hp : s.params.outsidePolicy = .resync) : s.outsideByte b = .ok s := by
  simp only [State.outsideByte, hp]

/-! ### Inside a frame -/

/-- 43 R226: a byte that is not reserved is appended as it stands, whatever `RxAppend` then does with it. -/
theorem State.feedByte_appends (hs : s.frameState = .inFrame) (hb : b ≠ s.params.frameByte)
    (he : b ≠ s.params.escapeByte) : s.feedByte b = s.rxAppend b := by
  simp only [State.feedByte, hs, if_neg hb, if_neg he]

/-! ### After an escape byte -/

/-- 43 R225: where the unescaped byte is appended or dropped, FEED is back in `IN_FRAME`. -/
theorem State.feedByte_unescapes {t : State} (hs : s.frameState = .inFrameEscaped)
    (h : s.rxAppend (unescape s.params b) = .ok t) : s.feedByte b = .ok { t with frameState := .inFrame } := by
  simp only [State.feedByte, hs, h, Except.map]

/-- 43 R227, 00 R22: a fault of `RxAppend` is FEED's, and keeps `IN_FRAME_ESCAPED`. -/
theorem State.feedByte_unescape_faults {r : Raised} (hs : s.frameState = .inFrameEscaped)
    (h : s.rxAppend (unescape s.params b) = .error r) : s.feedByte b = .error r := by
  simp only [State.feedByte, hs, h, Except.map]

/-! ### The obligations -/

/-- Settles O30: `StartFrame` for the delimiter, `OutsideByte` under each policy for any other byte. -/
theorem feedOutsideFrame : Obligations.FeedOutsideFrame := by
  refine fun s b hok hs => ⟨fun hb => ?_, fun hb hfatal => ?_, fun hb hresync => ?_⟩
  · exact exec_feed_ok s hok (State.feedByte_opens hs hb)
  · exact exec_feed_error s hok ((State.feedByte_outside hs hb).trans (State.outsideByte_fatal hfatal))
  · exact exec_feed_ok s hok ((State.feedByte_outside hs hb).trans (State.outsideByte_resync hresync))

/-- Settles O31: the escape byte's own transition, and the three outcomes of `RxAppend` of the byte itself. -/
theorem feedInsideFrame : Obligations.FeedInsideFrame := by
  refine fun s b hok hs hb =>
    ⟨fun he => ?_, fun he hroom => ?_, fun he hfull hdrop => ?_, fun he hfull hfault => ?_⟩
  · subst he
    exact exec_feed_ok s hok (s.feedByte_escape hs hb)
  · exact exec_feed_ok s hok ((State.feedByte_appends hs hb he).trans (s.rxAppend_fits hroom))
  · exact exec_feed_ok s hok ((State.feedByte_appends hs hb he).trans (s.rxAppend_drops hfull hdrop))
  · exact exec_feed_error s hok ((State.feedByte_appends hs hb he).trans (s.rxAppend_faults hfull hfault))

/-- Settles O32: the three outcomes of `RxAppend` of the unescaped byte. -/
theorem feedEscapedByte : Obligations.FeedEscapedByte := by
  refine fun s b hok hs => ⟨fun hroom => ?_, fun hfull hdrop => ?_, fun hfull hfault => ?_⟩
  · exact exec_feed_ok s hok (State.feedByte_unescapes hs (s.rxAppend_fits hroom))
  · exact exec_feed_ok s hok (State.feedByte_unescapes hs (s.rxAppend_drops hfull hdrop))
  · exact exec_feed_error s hok (State.feedByte_unescape_faults hs (s.rxAppend_faults hfull hfault))

end Sys2Proof.Machine
end

section
/-! PROOFS. Dispatch of a closed frame (44 R250 to R260): dropped frames, data frames and ACK-only frames.

The closing delimiter runs `CloseFrame` and then opens the next frame. So one lemma per kind of frame says what `CloseFrame`
answers, two lemmas carry an answer and a fault to FEED, and an obligation's clause is that answer with the next frame opened. -/

namespace Sys2Proof.Machine

variable {s : State}

/-! ### Bad frames -/

/-- 44 R251, R252: an overflowed or CRC-invalid frame is dropped. -/
theorem State.dispatch_invalid (h : s.rxOvf = true ∨ s.rxCrc ≠ 0) : s.dispatch = .ok s := by
  rcases s.dispatch_cases with ⟨-, e⟩ | ⟨ho, hc, -⟩ | ⟨ho, hc, -⟩ | ⟨ho, hc, -⟩ | ⟨ho, hc, -⟩
  · exact e
  all_goals exact absurd h (by simp [ho, hc])

/-- 44 R253: under `DROP`, a frame of exactly 2 bytes is dropped, its CRC valid or not. -/
theorem State.dispatch_short_drop (hl : s.rxLen = 2) (hp : s.params.shortFramePolicy = .drop) : s.dispatch = .ok s := by
  rcases s.dispatch_cases with ⟨-, e⟩ | ⟨-, -, -, -, e⟩ | ⟨-, -, -, hfault, -⟩ | ⟨-, -, hne, -⟩ | ⟨-, -, hne, -⟩
  · exact e
  · exact e
  · cases hp.symm.trans hfault
  · exact absurd hl hne
  · exact absurd hl hne

/-- 44 R253: under `FAULT`, a CRC-valid frame of exactly 2 bytes faults. -/
theorem State.dispatch_short_fault (ho : s.rxOvf = false) (hc : s.rxCrc = 0) (hl : s.rxLen = 2)
    (hp : s.params.shortFramePolicy = .fault) : s.dispatch = .error ⟨.shortFrame, 0⟩ := by
  simp [State.dispatch, ho, hc, hl, hp]

/-- 43 R228, 44 R251 to R253: the four kinds of frame that closing drops. -/
theorem State.closeFrame_drops
    (h : s.rxOvf = true ∨ s.rxLen < 2 ∨ s.rxCrc ≠ 0 ∨ (s.rxLen = 2 ∧ s.params.shortFramePolicy = .drop)) :
    s.closeFrame = .ok s := by
  by_cases hspurious : s.rxLen < 2 ∧ s.rxOvf = false
  · exact s.closeFrame_ignores hspurious.1 hspurious.2
  · rw [State.closeFrame, if_neg hspurious]
    rcases h with hovf | hlen | hcrc | ⟨hlen, hdrop⟩
    · exact State.dispatch_invalid (.inl hovf)
    · exact State.dispatch_invalid (.inl (by simpa [hlen] using hspurious))
    · exact State.dispatch_invalid (.inr hcrc)
    · exact State.dispatch_short_drop hlen hdrop

/-! ### Valid frames of 3 or more bytes -/

theorem State.closesValidFrame.closeFrame_eq {b : Byte} (h : s.closesValidFrame b) :
    s.closeFrame = .ok (if isData s.frameControl then s.dataFrame s.frameControl
      else s.ackUpto (piggyback s.frameControl)) := by
  obtain ⟨-, -, hlen, hovf, hcrc⟩ := h
  rw [s.closeFrame_dispatches (.inl (by omega))]
  rcases s.dispatch_cases with ⟨hbad, -⟩ | ⟨-, -, hshort, -⟩ | ⟨-, -, hshort, -⟩ | ⟨-, -, -, hdata, e⟩ | ⟨-, -, -, hdata, e⟩
  · exact absurd hbad (by simp [hovf, hcrc])
  · omega
  · omega
  · rw [e, if_pos hdata]
  · rw [e, hdata, if_neg Bool.false_ne_true]

/-! ### FEED of the closing delimiter -/

theorem State.feedByte_closes (hs : s.frameState = .inFrame) :
    s.feedByte s.params.frameByte = s.closeFrame.map State.startFrame := by
  simp only [State.feedByte, hs, if_true]

/-- 43 R224: where closing goes through, the next frame is opened. -/
theorem exec_feed_closes {t : State} (hok : s.faultCode = 0) (hs : s.frameState = .inFrame) (h : s.closeFrame = .ok t) :
    exec (.feed s.params.frameByte) s = .next t.startFrame :=
  exec_feed_ok s hok (by rw [State.feedByte_closes hs, h, Except.map])

/-- 43 R224, 00 R22: a fault of closing is FEED's, and opens no frame. -/
theorem exec_feed_close_faults {r : Raised} (hok : s.faultCode = 0) (hs : s.frameState = .inFrame)
    (h : s.closeFrame = .error r) : exec (.feed s.params.frameByte) s = .next (s.takeFault r) :=
  exec_feed_error s hok (by rw [State.feedByte_closes hs, h, Except.map])

/-! ### The obligations -/

/-- Settles O33: `StartFrame` alone after a frame that closing drops, and the short frame's fault. -/
theorem closingDropsBadFrame : Obligations.ClosingDropsBadFrame := by
  refine fun s hok hs => ⟨fun hbad => ?_, fun hovf hcrc hlen hfault => ?_⟩
  · exact exec_feed_closes hok hs (State.closeFrame_drops hbad)
  · exact exec_feed_close_faults hok hs
      ((s.closeFrame_dispatches (.inl hlen.ge)).trans (State.dispatch_short_fault hovf hcrc hlen hfault))

/-- Settles O34: bit 7 selects `State.dataFrame`, and the sequence number decides between its two outcomes. -/
theorem dataFrameIsAnswered : Obligations.DataFrameIsAnswered := by
  rintro s _ hok hvalid rfl hdata
  have hanswer := exec_feed_closes hok hvalid.1 (hvalid.closeFrame_eq.trans (congrArg _ (if_pos hdata)))
  refine ⟨fun hseq => ?_, fun hseq => ?_⟩
  · exact hanswer.trans (congrArg _ (s.dataFrame_accepted hseq))
  · exact hanswer.trans (congrArg _ (s.dataFrame_reacknowledged hseq))

/-- Settles O35: with bit 7 clear, closing is `AckUpto` on bits [5:3]. -/
theorem ackFrameRunsAckUpto : Obligations.AckFrameRunsAckUpto := by
  rintro s _ hok hvalid rfl hack
  have hclear : ¬ isData s.frameControl = true := Bool.eq_false_iff.mp hack
  exact exec_feed_closes hok hvalid.1 (hvalid.closeFrame_eq.trans (congrArg _ (if_neg hclear)))

end Sys2Proof.Machine
end

section
/-! PROOFS. ACK processing and retransmission (45 R280 to R289): elapsed time, `AckUpto` register by register, and the three kinds
of TICK.

The delay that an advancing ACK arms is `ACK_DELAY` less a maximum over the SENT slots. The maximum is the elapsed time of a SENT
slot that no other exceeds, so the delay is stated for such a slot. -/

namespace Sys2Proof.Machine

/-! ### Elapsed time -/

theorem State.elapsed_eq_emod (s : State) (t : Time) :
    (s.elapsed t : Int) = ((s.now.toNat : Int) - (t.toNat : Int)) % 2 ^ 32 := by
  simp only [State.elapsed, BitVec.toNat_sub]
  omega

/-- 45 R283: below 2^32 ms, the samples' difference modulo 2^32 is the real times' difference. -/
theorem State.elapsed_sampleOf {s : State} {stored later : Nat} (h : comparable stored later) (hnow : s.now = sampleOf later) :
    s.elapsed (sampleOf stored) = later - stored := by
  obtain ⟨hle, hlt⟩ := h
  simp only [State.elapsed, hnow, sampleOf, BitVec.toNat_sub, BitVec.toNat_ofNat]
  omega

/-- Settles O37: R283's formula, and the real times under it. -/
theorem elapsedIsRealTime : Obligations.ElapsedIsRealTime :=
  ⟨State.elapsed_eq_emod, fun _ _ _ => State.elapsed_sampleOf⟩

/-! ### The largest elapsed time -/

variable {s : State}

theorem State.mem_sentSlots {sl : Slot} :
    sl ∈ s.sentSlots ↔ ∃ i < s.slots.length, s.slot i = sl ∧ (s.slot i).status = .sent := by
  rw [State.sentSlots, List.mem_filter, decide_eq_true_eq, List.mem_iff_getElem]
  constructor
  · rintro ⟨⟨i, hi, rfl⟩, hsent⟩
    have hslot : s.slot i = s.slots[i] := by simp [State.slot, hi]
    exact ⟨i, hi, hslot, hslot ▸ hsent⟩
  · rintro ⟨i, hi, rfl, hsent⟩
    exact ⟨⟨i, hi, by simp [State.slot, hi]⟩, hsent⟩

theorem State.largestElapsed_eq_foldr : s.largestElapsed = (s.sentSlots.map fun sl => s.elapsed sl.time).foldr max ⊥ := by
  rw [State.largestElapsed, List.foldl_eq_foldr, Nat.bot_eq_zero]

/-- 45 R280: the maximum is reached at a SENT slot whose elapsed time no SENT slot exceeds. -/
theorem State.largestElapsed_eq {i : Nat} (hi : (s.slot i).status = .sent)
    (hmax : ∀ j < s.slots.length, (s.slot j).status = .sent → s.elapsed (s.slot j).time ≤ s.elapsed (s.slot i).time) :
    s.largestElapsed = s.elapsed (s.slot i).time := by
  have hin : i < s.slots.length := s.slot_inside (by simp [hi])
  have hmem : s.slot i ∈ s.sentSlots := State.mem_sentSlots.mpr ⟨i, hin, rfl, hi⟩
  rw [State.largestElapsed_eq_foldr]
  apply le_antisymm
  · refine List.max_le_of_forall_le _ _ fun e he => ?_
    obtain ⟨sl, hsl, rfl⟩ := List.mem_map.mp he
    obtain ⟨j, hj, rfl, hsent⟩ := State.mem_sentSlots.mp hsl
    exact hmax j hj hsent
  · exact List.le_max_of_le (List.mem_map_of_mem hmem) le_rfl

theorem State.rearmDelay_congr {t : State} (hslots : t.slots = s.slots) (hnow : t.now = s.now)
    (hparams : t.params = s.params) : t.rearmDelay = s.rearmDelay := by
  simp only [State.rearmDelay, State.largestElapsed, State.sentSlots, State.elapsed, hslots, hnow, hparams]

/-! ### Clearing acknowledged slots -/

@[simp] theorem State.clearSlots_now (q : Seq) (n : Nat) : (s.clearSlots q n).now = s.now := by
  rw [State.clearSlots_eq]

@[simp] theorem State.clearSlots_params (q : Seq) (n : Nat) : (s.clearSlots q n).params = s.params := by
  rw [State.clearSlots_eq]

/-! ### `AckUpto` -/

@[simp] theorem State.ackUpto_now (p : Seq) : (s.ackUpto p).now = s.now := by
  rw [s.ackUpto_eq p]

@[simp] theorem State.ackUpto_params (p : Seq) : (s.ackUpto p).params = s.params := by
  rw [s.ackUpto_eq p]

theorem State.ackUpto_elapsed (p : Seq) (t : Time) : (s.ackUpto p).elapsed t = s.elapsed t := by
  rw [State.elapsed, State.ackUpto_now, State.elapsed]

/-! ### An ACK that advances, register by register -/

section Advance

variable {p : Seq} (h₀ : seqDist s.ackSeq p ≠ 0) (h₁ : seqDist s.ackSeq p ≤ s.outstanding)
include h₀ h₁

theorem State.ackUpto_advance_ackSeq : (s.ackUpto p).ackSeq = p := by
  rw [s.ackUpto_advance h₀ h₁]

theorem State.ackUpto_advance_slots : (s.ackUpto p).slots = (s.clearSlots s.ackSeq (seqDist s.ackSeq p)).slots := by
  rw [s.ackUpto_advance h₀ h₁]

theorem State.ackUpto_advance_length : (s.ackUpto p).slots.length = s.slots.length := by
  rw [State.ackUpto_advance_slots h₀ h₁, State.clearSlots_length]

/-- 45 R281: NONE are exactly the slots of the sequences from the old `ACK_SEQ` up to but not including `p`. -/
theorem State.ackUpto_advance_slot {i : Nat} (hi : i < s.slots.length) :
    (s.ackUpto p).slot i = { s.slot i with
      status := if ∃ k < seqDist s.ackSeq p, s.slotOf (seqAdd s.ackSeq k) = i then .none else (s.slot i).status } := by
  rw [State.slot_eq_of_slots (State.ackUpto_advance_slots h₀ h₁), s.clearSlots_slot _ _ _ hi]
  split <;> rfl

theorem State.ackUpto_advance_anySent :
    (s.ackUpto p).anySent = true ↔ ∃ i < s.slots.length, ((s.ackUpto p).slot i).status = .sent := by
  rw [State.anySent_iff_slot, State.ackUpto_advance_length h₀ h₁]

/-- The timer ends armed exactly where a slot is still SENT. -/
theorem State.ackUpto_advance_timerArmed : (s.ackUpto p).timerArmed = (s.ackUpto p).anySent := by
  rw [s.ackUpto_advance h₀ h₁]
  rfl

/-- 45 R280: the re-arm delay is that of the state with the slots already cleared. -/
theorem State.ackUpto_advance_out :
    (s.ackUpto p).out = s.out ++ (if s.timerArmed then [.cancel] else [])
      ++ if (s.ackUpto p).anySent then [.arm (s.ackUpto p).rearmDelay] else [] := by
  have hslots := State.ackUpto_advance_slots h₀ h₁
  have hdelay : (s.ackUpto p).rearmDelay = (s.clearSlots s.ackSeq (seqDist s.ackSeq p)).rearmDelay :=
    State.rearmDelay_congr hslots (by simp) (by simp)
  rw [hdelay, State.anySent, hslots, s.ackUpto_advance h₀ h₁]
  rfl

/-- 45 R280: where no packet is left, the timer is not armed again. -/
theorem State.ackUpto_advance_out_idle (hnone : ∀ i < s.slots.length, ((s.ackUpto p).slot i).status ≠ .sent) :
    (s.ackUpto p).out = s.out ++ if s.timerArmed then [.cancel] else [] := by
  have hidle : ¬ (s.ackUpto p).anySent = true := by
    rw [State.ackUpto_advance_anySent h₀ h₁]
    exact fun ⟨i, hi, hsent⟩ => hnone i hi hsent
  rw [State.ackUpto_advance_out h₀ h₁, if_neg hidle, List.append_nil]

/-- 45 R280: with `i` a longest-waiting SENT slot, `Arm` takes what is left of `ACK_DELAY` since its stored time. -/
theorem State.ackUpto_advance_out_rearm {i : Nat} (hi : i < s.slots.length) (hsent : ((s.ackUpto p).slot i).status = .sent)
    (hmax : ∀ j < s.slots.length, ((s.ackUpto p).slot j).status = .sent →
      s.elapsed ((s.ackUpto p).slot j).time ≤ s.elapsed ((s.ackUpto p).slot i).time) :
    (s.ackUpto p).out = s.out ++ (if s.timerArmed then [.cancel] else [])
      ++ [.arm (BitVec.ofNat 32 (s.params.ackDelay.toNat - s.elapsed ((s.ackUpto p).slot i).time))] := by
  have hany := (State.ackUpto_advance_anySent h₀ h₁).mpr ⟨i, hi, hsent⟩
  have hlargest : (s.ackUpto p).largestElapsed = s.elapsed ((s.ackUpto p).slot i).time := by
    rw [State.largestElapsed_eq hsent, State.ackUpto_elapsed]
    simpa only [State.ackUpto_elapsed, State.ackUpto_advance_length h₀ h₁] using hmax
  rw [State.ackUpto_advance_out h₀ h₁, if_pos hany, State.rearmDelay, hlargest, State.ackUpto_params]

end Advance

/-- Settles O36: `AckUpto`'s two cases; of an advancing one, each register that it writes. -/
theorem ackUptoFollowsRule : Obligations.AckUptoFollowsRule := by
  intro s p hW
  rw [← hW]
  refine ⟨s.ackUpto_noop, fun h₀ h₁ => ⟨s.ackUpto p, rfl, ?_, ?_, ?_, ?_, ?_, ?_⟩⟩
  · have hframe := s.ackUpto_eq p
    rwa [State.ackUpto_advance_ackSeq h₀ h₁] at hframe
  · exact State.ackUpto_advance_length h₀ h₁
  · exact fun i hi => State.ackUpto_advance_slot h₀ h₁ hi
  · rw [State.ackUpto_advance_timerArmed h₀ h₁, State.ackUpto_advance_anySent h₀ h₁]
  · exact State.ackUpto_advance_out_idle h₀ h₁
  · exact fun i hi => State.ackUpto_advance_out_rearm h₀ h₁ hi

/-! ### The three kinds of TICK -/

theorem Memory.readRange_zero (m : Memory) (n : Nat) : m.readRange 0 n = (List.range n).map m.read := by
  simp [Memory.readRange]

/-- 45 R289: a stale TICK. -/
theorem State.checkTimeouts_stale (hnone : ∀ sl ∈ s.slots, sl.status ≠ .sent) : s.checkTimeouts = s := by
  have hidle : s.anySent = false := by simpa [State.anySent] using hnone
  rw [State.checkTimeouts, hidle, if_neg Bool.false_ne_true]

/-- 45 R286: a TICK that finds no packet overdue. -/
theorem State.checkTimeouts_early (hsent : s.anySent = true) (hnone : s.oldestOverdue = none) :
    s.checkTimeouts = s.armTimer s.params.ackDelay := by
  rcases s.checkTimeouts_cases with ⟨hidle, -⟩ | ⟨-, -, e⟩ | ⟨q, -, hq, -⟩
  · exact absurd (hidle.symm.trans hsent) Bool.false_ne_true
  · exact e
  · cases hnone.symm.trans hq

theorem State.anySent_of_overdue {i : Nat} (h : s.overdue i = true) : s.anySent = true := by
  have hi := ((s.overdue_iff i).mp h).1
  exact s.anySent_iff_slot.mpr ⟨i, s.slot_inside (by simp [hi]), hi⟩

/-- 45 R286, R287: a TICK that finds `q` overdue, and every earlier packet not. -/
theorem State.checkTimeouts_late {q : Seq} (hq : s.oldestOverdue = some q) :
    s.checkTimeouts = (s.retransmit q).armTimer s.params.ackDelay := by
  obtain ⟨-, -, -, hover, -⟩ := s.oldestOverdue_some hq
  rcases s.checkTimeouts_cases with ⟨hidle, -⟩ | ⟨-, hnone, -⟩ | ⟨q', -, hq', e⟩
  · exact absurd (hidle.symm.trans (State.anySent_of_overdue hover)) Bool.false_ne_true
  · cases hq.symm.trans hnone
  · obtain rfl := Option.some.inj (hq.symm.trans hq')
    exact e

/-- Settles O38: the statement's `late` is the overdue test, and the scan stops at the first packet that meets it. -/
theorem tickFollowsRule : Obligations.TickFollowsRule := by
  refine ⟨rfl, fun s hok => ?_⟩
  intro late
  have hlate (k : Nat) : late k ↔ s.overdue (s.slotOf (s.outstandingSeq k)) = true := (s.overdue_iff _).symm
  have hearly (k : Nat) (h : ¬ late k) : s.overdue (s.slotOf (s.outstandingSeq k)) = false :=
    Bool.eq_false_iff.mpr (mt (hlate k).mpr h)
  refine ⟨fun hnone => ?_, fun hsent hnone => ?_, fun k hk hklate hfirst => ?_⟩
  · rw [exec_tick s hok, State.checkTimeouts_stale hnone]
  · have hscan := s.oldestOverdue_none fun k hk => hearly k (hnone k hk)
    rw [exec_tick s hok, State.checkTimeouts_early (s.anySent_iff.mpr hsent) hscan]
    rfl
  · have hscan := s.oldestOverdue_eq hk ((hlate k).mp hklate) fun j hj => hearly j (hfirst j hj)
    rw [exec_tick s hok, State.checkTimeouts_late hscan, State.retransmit_eq, Memory.readRange_zero]
    rfl

end Sys2Proof.Machine
end

section
/-! PROOFS. Faults (60 R321): the fault state is entered by `State.takeFault` alone, from the state the command found.

No body of a command writes `FAULT_CODE` where it goes on, so a command that ends in the fault state is one whose body raised. -/

namespace Sys2Proof.Machine

variable {s t : State}

/-! ### What goes on keeps `FAULT_CODE` -/

@[simp] theorem State.ackUpto_faultCode (s : State) (p : Seq) : (s.ackUpto p).faultCode = s.faultCode := by
  rw [s.ackUpto_eq p]

@[simp] theorem State.accepted_faultCode (s : State) : s.accepted.faultCode = s.faultCode := by
  rw [State.accepted, s.afterPiggyback_eq]

@[simp] theorem State.reacknowledged_faultCode (s : State) : s.reacknowledged.faultCode = s.faultCode := by
  rw [State.reacknowledged, s.afterPiggyback_eq]

theorem State.feedByte_faultCode {b : Byte} (h : s.feedByte b = .ok t) : t.faultCode = s.faultCode := by
  rcases s.feedByte_ok h with ⟨-, -, rfl⟩ | ⟨-, -, -, rfl⟩ | ⟨-, -, -, rfl⟩ | ⟨-, -, -, rfl⟩ | ⟨-, -, -, rfl⟩
      | ⟨-, -, rfl⟩ | ⟨-, -, -, rfl⟩ | ⟨v, -, ⟨-, rfl⟩ | ⟨-, -, rfl⟩⟩
  all_goals simp

theorem State.startPacket_faultCode (h : s.startPacket = .ok t) : t.faultCode = s.faultCode := by
  rcases s.startPacket_cases with ⟨-, e⟩ | ⟨-, -, e⟩ | ⟨-, -, e⟩ <;> rw [e] at h <;> cases h
  rfl

theorem State.appendByte_faultCode {b : Byte} (h : s.appendByte b = .ok t) : t.faultCode = s.faultCode := by
  rcases s.appendByte_cases b with ⟨-, e⟩ | ⟨-, -, e⟩ | ⟨-, -, e⟩ <;> rw [e] at h <;> cases h
  rfl

theorem State.finishPacket_faultCode (h : s.finishPacket = .ok t) : t.faultCode = s.faultCode := by
  rcases s.finishPacket_cases with ⟨-, e⟩ | ⟨-, e⟩ <;> rw [e] at h <;> cases h
  rfl

@[simp] theorem State.checkTimeouts_faultCode (s : State) : s.checkTimeouts.faultCode = s.faultCode := by
  rcases s.checkTimeouts_cases with ⟨-, e⟩ | ⟨-, -, e⟩ | ⟨q, -, -, e⟩
  · rw [e]
  · rw [e, State.armTimer_faultCode]
  · rw [e, State.armTimer_faultCode, State.retransmit_eq]

/-! ### The one way into the fault state -/

/-- 60 R321: a command run outside the fault state stays outside it, or enters the fault state from the state it found. -/
theorem exec_stays_or_takesFault {i : Instr} (h : exec i s = .next t) (hok : s.faultCode = 0) :
    t.faultCode = 0 ∨ ∃ r, t = s.takeFault r := by
  rcases exec_cases s h with ⟨-, rfl⟩ | ⟨-, hstuck, -⟩ | ⟨-, b, -, hb | ⟨r, -, e⟩⟩ | ⟨-, -, hb | ⟨r, -, e⟩⟩
      | ⟨-, b, -, hb | ⟨r, -, e⟩⟩ | ⟨-, -, hb | ⟨r, -, e⟩⟩ | ⟨-, -, rfl⟩ | ⟨-, -, rfl⟩
  · exact .inl s.initialise_faultCode
  · exact absurd hok hstuck
  · exact .inl ((State.feedByte_faultCode hb).trans hok)
  · exact .inr ⟨r, e⟩
  · exact .inl ((State.startPacket_faultCode hb).trans hok)
  · exact .inr ⟨r, e⟩
  · exact .inl ((State.appendByte_faultCode hb).trans hok)
  · exact .inr ⟨r, e⟩
  · exact .inl ((State.finishPacket_faultCode hb).trans hok)
  · exact .inr ⟨r, e⟩
  · exact .inl hok
  · exact .inl (s.checkTimeouts_faultCode.trans hok)

/-- 30 R103: outside the fault state, an illegal word raises. -/
theorem rejectWord_takesFault (e : DecodeError) (hok : s.faultCode = 0) :
    rejectWord e s = .next (s.takeFault ⟨.illegalCommand, rejectedOpcode e⟩) :=
  State.perform_error s (body := fun _ => .error ⟨.illegalCommand, rejectedOpcode e⟩) hok rfl

/-- 60 R321 for the step of any word: a step that ends in the fault state enters it from the state in which the port has given up
its word. -/
theorem step_takesFault (h : step s = .next t) (hok : s.faultCode = 0) (hfault : t.faultCode ≠ 0) :
    ∃ q rest r, t = (s.acceptRequest q rest).takeFault r := by
  rcases step_cases s with ⟨-, e⟩ | ⟨q, rest, i, -, -, e⟩ | ⟨q, rest, d, -, -, e⟩ <;> rw [e] at h
  · cases h
    exact absurd hok hfault
  · obtain ⟨r, ht⟩ := (exec_stays_or_takesFault h hok).resolve_left hfault
    exact ⟨q, rest, r, ht⟩
  · rw [rejectWord_takesFault (s := s.acceptRequest q rest) d hok] at h
    cases h
    exact ⟨q, rest, _, rfl⟩

/-- Settles O40: a command, or the step of a word, that ends in the fault state entered it by `State.takeFault`. -/
theorem faultEntryIsPrecise : Obligations.FaultEntryIsPrecise := by
  refine ⟨fun i s t h hok hfault => ?_, fun s t h hok hfault => ?_⟩
  · obtain ⟨r, rfl⟩ := (exec_stays_or_takesFault h hok).resolve_left hfault
    rfl
  · obtain ⟨q, rest, r, rfl⟩ := step_takesFault h hok hfault
    rfl

end Sys2Proof.Machine
end

section
/-! PROOFS. Reset (70 R350 to R352): INIT's next state, and the invariants of the power-on state. -/

namespace Sys2Proof.Machine

variable {P : Params}

/-- Settles O7: INIT is `State.initialise` in every state, which writes the reset values of R350. -/
theorem initResetsRegisters : Obligations.InitResetsRegisters := ⟨rfl, exec_init⟩

/-! ### The power-on state -/

theorem State.eq_reset_of_mem_powerOn {sl : Slot} (h : sl ∈ (State.powerOn P).slots) : sl = Slot.reset :=
  List.eq_of_mem_replicate h

@[simp] theorem State.powerOn_slot (i : Nat) : (State.powerOn P).slot i = Slot.reset := by
  rw [State.slot, List.getD_eq_getElem?_getD]
  cases h : (State.powerOn P).slots[i]? with
  | none => rfl
  | some sl => exact State.eq_reset_of_mem_powerOn (List.mem_of_getElem? h)

theorem State.powerOn_slot_status (i : Nat) : ((State.powerOn P).slot i).status = .none := by
  rw [State.powerOn_slot]
  rfl

@[simp] theorem State.powerOn_outstanding : (State.powerOn P).outstanding = 0 := seqDist_self 0

@[simp] theorem State.powerOn_txOpen : (State.powerOn P).txOpen = false := by
  rw [State.txOpen_eq_false, State.powerOn_slot_status]
  decide

/-- 70 R352: with no packet outstanding, no packet open and every slot empty, each invariant of 10 R49 is immediate. -/
theorem State.powerOn_inv (legal : P.wellFormed) : (State.powerOn P).Inv where
  params := legal
  slotCount := List.length_replicate
  windowBound := State.powerOn_outstanding.trans_le (Nat.zero_le _)
  outstandingSent _ hk := absurd (hk.trans_eq State.powerOn_outstanding) (Nat.not_lt_zero _)
  openFits hopen := absurd (State.powerOn_txOpen.symm.trans hopen) Bool.false_ne_true
  otherNone i _ _ _ := State.powerOn_slot_status i
  timerIff := by
    refine ⟨fun harmed => absurd harmed Bool.false_ne_true, fun ⟨i, _, hsent⟩ => ?_⟩
    rw [State.powerOn_slot_status] at hsent
    cases hsent
  slotLen sl hsl := by
    rw [State.eq_reset_of_mem_powerOn hsl]
    exact Nat.zero_le _
  payloads sl hsl := by
    rw [State.eq_reset_of_mem_powerOn hsl]
    exact ⟨Memory.wf_empty, Memory.within_empty _⟩
  rxLen := Nat.zero_le _
  rxBuf := ⟨Memory.wf_empty, Memory.within_empty _⟩
  overflowFull hovf := absurd hovf Bool.false_ne_true
  faultCode := Nat.zero_le _

/-- Settles O9: the invariants at power-on, for every legal instance and so for the default one. -/
theorem resetMeetsInvariants : Obligations.ResetMeetsInvariants := by
  refine ⟨fun P legal => ?_, State.powerOn_inv (by decide)⟩
  refine ⟨State.powerOn_inv legal, rfl, State.powerOn_outstanding, fun sl hsl => ?_, rfl⟩
  rw [State.eq_reset_of_mem_powerOn hsl]
  rfl

end Sys2Proof.Machine
end

section
/-! PROOFS. Command words and the port (30 R100 to R104): decoding and encoding agree, and what a step
does with the word it takes. -/

namespace Sys2Proof.Machine

/-! ### The two fields of a word -/

theorem fields_encode (i : Instr) : opcField (encode i) = i.opcode ∧ opdField (encode i) = i.operand := by
  cases i with
  | init => exact Laws.CommandWord.init
  | feed b => exact Laws.CommandWord.feed b
  | start => exact Laws.CommandWord.start
  | append b => exact Laws.CommandWord.append b
  | finish => exact Laws.CommandWord.finish
  | avail => exact Laws.CommandWord.avail
  | tick => exact Laws.CommandWord.tick

/-- A word is its two fields (30 R100). -/
theorem opcField_append_opdField (w : CmdWord) : opcField w ++ opdField w = w := by
  ext k hk
  simp only [opcField, opdField]
  grind

theorem eq_encode_iff {w : CmdWord} {i : Instr} :
    w = encode i ↔ opcField w = i.opcode ∧ opdField w = i.operand := by
  refine ⟨fun h => h ▸ fields_encode i, fun ⟨hopc, hopd⟩ => ?_⟩
  rw [encode, ← hopc, ← hopd, opcField_append_opdField]

theorem decodeNoOperand_eq_ok {w : CmdWord} {i j : Instr} :
    decodeNoOperand w i = .ok j ↔ opdField w = 0 ∧ j = i := by
  unfold decodeNoOperand
  split <;> simp_all [eq_comm]

/-- 30 R102, R103: a command is read from that command's own two fields only. -/
theorem decode_eq_ok_cases {w : CmdWord} {i : Instr} (h : decode w = .ok i) :
    opcField w = i.opcode ∧ opdField w = i.operand := by
  have hopc {n : Nat} (hn : (opcField w).toNat = n) (hlt : n < 2 ^ 8) : opcField w = BitVec.ofNat 8 n :=
    BitVec.eq_of_toNat_eq (by rw [hn, BitVec.toNat_ofNat, Nat.mod_eq_of_lt hlt])
  unfold decode at h
  split at h
  case h_2 hn => cases h; exact ⟨hopc hn (by decide), rfl⟩
  case h_4 hn => cases h; exact ⟨hopc hn (by decide), rfl⟩
  case h_8 => cases h
  all_goals
    obtain ⟨hopd, rfl⟩ := decodeNoOperand_eq_ok.mp h
    exact ⟨hopc ‹_› (by decide), hopd⟩

theorem decode_encode (i : Instr) : decode (encode i) = .ok i := by
  obtain ⟨hopc, hopd⟩ := fields_encode i
  cases i <;> simp_all [decode, decodeNoOperand, Instr.opcode, Instr.operand]

theorem decode_eq_ok_iff {w : CmdWord} {i : Instr} : decode w = .ok i ↔ w = encode i :=
  ⟨fun h => eq_encode_iff.mpr (decode_eq_ok_cases h), fun h => h ▸ decode_encode i⟩

/-- Settles O1: a word is its two fields, and the decoder reads a command exactly from that command's fields. -/
theorem decodeEncodeAgree : Obligations.DecodeEncodeAgree := fun _ _ => decode_eq_ok_iff

/-! ### The legal words -/

/-- 30 R103: the legal words are those some command is encoded as. -/
theorem legal_iff_exists_encode (w : CmdWord) : w.legal ↔ ∃ i, decode w = .ok i := by
  simp only [decode_eq_ok_iff, eq_encode_iff]
  change (opcField w ∈ _ ∨ opcField w ∈ _ ∧ opdField w = 0) ↔ _
  constructor
  · rintro (h | ⟨h, hopd⟩) <;> simp only [List.mem_cons, List.not_mem_nil, or_false] at h
    · rcases h with h | h
      · exact ⟨.feed (opdField w), h, rfl⟩
      · exact ⟨.append (opdField w), h, rfl⟩
    · rcases h with h | h | h | h | h
      · exact ⟨.init, h, hopd⟩
      · exact ⟨.start, h, hopd⟩
      · exact ⟨.finish, h, hopd⟩
      · exact ⟨.avail, h, hopd⟩
      · exact ⟨.tick, h, hopd⟩
  · rintro ⟨i, hopc, hopd⟩
    rw [hopc, hopd]
    cases i <;> simp [Instr.opcode, Instr.operand]

theorem rejectedOpcode_of_decode {w : CmdWord} {e : DecodeError} (h : decode w = .error e) :
    rejectedOpcode e = opcField w := by
  have hno {i : Instr} (h : decodeNoOperand w i = .error e) : rejectedOpcode e = opcField w := by
    unfold decodeNoOperand at h
    split at h <;> cases h
    rfl
  unfold decode at h
  split at h
  case h_2 => cases h
  case h_4 => cases h
  case h_8 => cases h; rfl
  all_goals exact hno h

/-- Settles O2: the enumerated words are the encodings, and the decoder's error names the word's own `OPC`. -/
theorem illegalWordRaisesFault : Obligations.IllegalWordRaisesFault := by
  refine ⟨legal_iff_exists_encode, fun s w t rest hport hok hillegal => ?_⟩
  cases hd : decode w with
  | ok i => exact absurd ((legal_iff_exists_encode w).mpr ⟨i, hd⟩) hillegal
  | error e =>
    rw [step_rejected s hport hd, rejectWord_takesFault e (by exact hok), rejectedOpcode_of_decode hd]
    rfl

/-- Settles O3, by evaluating the decoder on the nine words. -/
theorem sampleWordsDecode : Obligations.SampleWordsDecode := by
  unfold Obligations.SampleWordsDecode
  decide

/-! ### One word at the port -/

theorem step_withFetchWord (s : State) (i : Instr) : step (s.withFetchWord 16 (encode i).toNat) = exec i s := by
  have hword : BitVec.ofNat 16 ((encode i).toNat % 2 ^ 16) = encode i := by
    rw [Nat.mod_eq_of_lt (encode i).isLt, BitVec.ofNat_toNat, BitVec.setWidth_eq]
  rw [State.withFetchWord, hword, step_decoded _ (s.offer_port (encode i)) (decode_encode i)]
  rfl

/-- Settles O4: a step is `exec` of the decoded command, and `withFetchWord` places the word that decodes to it. -/
theorem stepRunsDecodedCommand : Obligations.StepRunsDecodedCommand :=
  ⟨fun s _ _ _ hport hd => step_decoded s hport hd, step_withFetchWord⟩

/-- Settles O5: no word at the port, an idle step. -/
theorem idleStepKeepsState : Obligations.IdleStepKeepsState := step_idle

/-- 30 R104, 60 R322: in the fault state an illegal word is not taken. -/
theorem rejectWord_faulted {s : State} (e : DecodeError) (h : s.faultCode ≠ 0) : rejectWord e s = .next s :=
  State.perform_faulted s (body := fun _ => .error ⟨.illegalCommand, rejectedOpcode e⟩) h

/-- Settles O6: 0x0100 is INIT's word and no other command's, and in the fault state every other word changes nothing. -/
theorem onlyInitLeavesFaultState : Obligations.OnlyInitLeavesFaultState := by
  refine fun s r rest hport hstuck => ⟨fun hinit => ?_, fun hother => ?_⟩
  · exact step_decoded s hport (decode_eq_ok_iff.mpr hinit)
  · cases hd : decode r.word with
    | ok i =>
      have hi : i ≠ .init := by
        rintro rfl
        exact hother (decode_eq_ok_iff.mp hd)
      rw [step_decoded s hport hd, exec_faulted (s.acceptRequest r rest) (by exact hstuck) hi]
      rfl
    | error e =>
      rw [step_rejected s hport hd, rejectWord_faulted (s := s.acceptRequest r rest) e (by exact hstuck)]
      rfl

end Sys2Proof.Machine
end

section
/-! PROOFS. The invariants of 10 R49 (I1 to I5), with the register ranges and the memories' form: every step keeps them.

The invariants split in two. What is stored (`State.StorageOk`) is kept write by write. The slot statuses are read off the
sequence registers (`State.WindowOk`): SENT are exactly the slots of the outstanding sequences, PREPARING at most that of
`TX_SEQ`; the statement turns on the slots of up to `W` consecutive sequences being different. -/

namespace Sys2Proof.Machine

variable {s t : State}

/-! ### The slots of consecutive sequences -/

/-- 00 R19: the slots of `W` consecutive sequences are different. -/
theorem slotIndex_seqAdd_inj {w : WindowSize} {a : Seq} {j k : Nat} (hj : j < w.size) (hk : k < w.size)
    (h : slotIndex w (seqAdd a j) = slotIndex w (seqAdd a k)) : j = k := by
  have one : ∀ a : Seq, ∀ j < 1, ∀ k < 1, slotIndex .one (seqAdd a j) = slotIndex .one (seqAdd a k) → j = k := by decide
  have two : ∀ a : Seq, ∀ j < 2, ∀ k < 2, slotIndex .two (seqAdd a j) = slotIndex .two (seqAdd a k) → j = k := by decide
  have four : ∀ a : Seq, ∀ j < 4, ∀ k < 4, slotIndex .four (seqAdd a j) = slotIndex .four (seqAdd a k) → j = k := by decide
  cases w with
  | one => exact one a j hj k hk h
  | two => exact two a j hj k hk h
  | four => exact four a j hj k hk h

theorem seqAdd_seqAdd (a : Seq) (m n : Nat) : seqAdd (seqAdd a m) n = seqAdd a (m + n) := by
  simp only [seqAdd, BitVec.ofNat_add, BitVec.add_assoc]

/-- `TX_SEQ` is the sequence after the outstanding ones (10 R48). -/
theorem State.outstandingSeq_outstanding (s : State) : s.outstandingSeq s.outstanding = s.txSeq :=
  seqAdd_seqDist s.ackSeq s.txSeq

theorem State.outstanding_congr (htx : t.txSeq = s.txSeq) (hack : t.ackSeq = s.ackSeq) : t.outstanding = s.outstanding := by
  rw [State.outstanding, htx, hack, State.outstanding]

theorem State.slotOf_congr (hparams : t.params = s.params) (q : Seq) : t.slotOf q = s.slotOf q := by
  rw [State.slotOf, hparams, State.slotOf]

theorem State.slotOf_outstandingSeq_congr (hparams : t.params = s.params) (hack : t.ackSeq = s.ackSeq) (k : Nat) :
    t.slotOf (t.outstandingSeq k) = s.slotOf (s.outstandingSeq k) := by
  rw [State.slotOf_congr hparams, State.outstandingSeq, hack, State.outstandingSeq]

/-- An acknowledged distance within `OUT` is taken off it. -/
theorem seqDist_sub_of_le {a p q : Seq} (h : seqDist a p ≤ seqDist a q) : seqDist p q = seqDist a q - seqDist a p := by
  simp only [seqDist] at h ⊢
  bv_omega

/-! ### One changed slot -/

/-- A slot after a change of slot `i`: another one, or the changed one of the array. -/
theorem State.slot_of_modify {i : Nat} {f : Slot → Slot} (h : t.slots = s.slots.modify i f) (j : Nat) :
    t.slot j = s.slot j ∨ (j = i ∧ t.slot j = f (s.slot j)) := by
  have ht : t.slot j = (s.modifySlot i f).slot j := State.slot_eq_of_slots h j
  rw [ht]
  by_cases hji : j = i
  · subst hji
    by_cases hlen : j < s.slots.length
    · exact .inr ⟨rfl, by rw [s.slot_modifySlot _ _ _ hlen, if_pos rfl]⟩
    · exact .inl (by simp [State.slot, hlen])
  · exact .inl (s.slot_modifySlot_ne f hji)

/-- A slot inside the array after a change of slot `i`. -/
theorem State.slot_of_modify_inside {i j : Nat} {f : Slot → Slot} (h : t.slots = s.slots.modify i f) (hj : j < s.slots.length) :
    t.slot j = if j = i then f (s.slot j) else s.slot j := by
  have ht : t.slot j = (s.modifySlot i f).slot j := State.slot_eq_of_slots h j
  rw [ht]
  by_cases hji : j = i
  · subst hji
    rw [s.slot_modifySlot _ _ _ hj]
  · rw [s.slot_modifySlot_ne f hji, if_neg hji]

/-- What every slot meets is met after a change that keeps it. -/
theorem forall_mem_modify {α : Type} {p : α → Prop} {l : List α} {i : Nat} {f : α → α} (h : ∀ x ∈ l, p x)
    (hf : ∀ x, p x → p (f x)) : ∀ x ∈ l.modify i f, p x := by
  intro x hx
  obtain ⟨j, hj, rfl⟩ := List.mem_iff_getElem.mp hx
  rw [List.length_modify] at hj
  rw [List.getElem_modify]
  split
  · exact hf _ (h _ (List.getElem_mem hj))
  · exact h _ (List.getElem_mem hj)

/-! ### The two halves of the invariants -/

/-- The stored lengths and bytes of a slot lie in its array of `size` bytes (10 R30, 20 R70). -/
structure Slot.Fits (size : Nat) (sl : Slot) : Prop where
  len : sl.len ≤ size
  wf : sl.payload.wf
  within : sl.payload.within size

/-- What the invariants say about stored values. -/
structure State.StorageOk (s : State) : Prop where
  params : s.params.wellFormed
  slotCount : s.slots.length = s.params.window.size
  slots : ∀ sl ∈ s.slots, sl.Fits s.params.maxPayload
  rxLen : s.rxLen ≤ s.params.rxBufSize
  rxBuf : s.rxBuf.wf ∧ s.rxBuf.within s.params.rxBufSize
  overflowFull : s.rxOvf = true → s.rxLen = s.params.rxBufSize
  faultCode : s.faultCode.toNat ≤ 8

/-- What (I1) to (I5) say about the window: the statuses and the timer, read off the sequence registers. -/
structure State.WindowOk (s : State) : Prop where
  bound : s.outstanding ≤ s.params.window.size
  sent : ∀ i < s.params.window.size,
    (s.slot i).status = .sent ↔ ∃ k < s.outstanding, s.slotOf (s.outstandingSeq k) = i
  opened : ∀ i < s.params.window.size, (s.slot i).status = .preparing →
    i = s.slotOf s.txSeq ∧ s.outstanding < s.params.window.size
  timer : s.timerArmed = true ↔ 0 < s.outstanding

theorem State.slotOf_lt (s : State) (q : Seq) : s.slotOf q < s.params.window.size := slotIndex_lt _ q

/-- Some slot is SENT exactly where some sequence is outstanding. -/
theorem State.exists_sent_iff
    (h : ∀ i < s.params.window.size, (s.slot i).status = .sent ↔ ∃ k < s.outstanding, s.slotOf (s.outstandingSeq k) = i) :
    (∃ i < s.params.window.size, (s.slot i).status = .sent) ↔ 0 < s.outstanding := by
  constructor
  · rintro ⟨i, hi, hsent⟩
    obtain ⟨k, hk, -⟩ := (h i hi).mp hsent
    exact Nat.zero_lt_of_lt hk
  · exact fun hpos => ⟨_, s.slotOf_lt _, (h _ (s.slotOf_lt _)).mpr ⟨0, hpos, rfl⟩⟩

theorem State.Inv.storageOk (h : s.Inv) : s.StorageOk where
  params := h.params
  slotCount := h.slotCount
  slots sl hsl := ⟨h.slotLen sl hsl, (h.payloads sl hsl).1, (h.payloads sl hsl).2⟩
  rxLen := h.rxLen
  rxBuf := h.rxBuf
  overflowFull := h.overflowFull
  faultCode := h.faultCode

theorem State.Inv.sent_iff (h : s.Inv) (i : Nat) (hi : i < s.params.window.size) :
    (s.slot i).status = .sent ↔ ∃ k < s.outstanding, s.slotOf (s.outstandingSeq k) = i := by
  refine ⟨fun hsent => ?_, fun ⟨k, hk, hki⟩ => hki ▸ h.outstandingSent k hk⟩
  by_contra hnot
  have hnone := h.otherNone i hi (fun k hk hki => hnot ⟨k, hk, hki⟩) fun ⟨hopen, htx⟩ => by
    have hprep := s.txOpen_iff.mp hopen
    rw [← htx, hsent] at hprep
    cases hprep
  rw [hsent] at hnone
  cases hnone

theorem State.Inv.windowOk (h : s.Inv) : s.WindowOk where
  bound := h.windowBound
  sent := h.sent_iff
  opened i hi hprep := by
    have hother : ∀ k < s.outstanding, s.slotOf (s.outstandingSeq k) ≠ i := fun k hk hki => by
      have hsent := h.outstandingSent k hk
      rw [hki, hprep] at hsent
      cases hsent
    by_cases hopen : s.txOpen = true ∧ i = s.slotOf s.txSeq
    · exact ⟨hopen.2, (h.openFits hopen.1).1⟩
    · have hnone := h.otherNone i hi hother hopen
      rw [hprep] at hnone
      cases hnone
  timer := h.timerIff.trans (State.exists_sent_iff h.sent_iff)

/-- The invariants from their halves. -/
theorem State.inv_of_storage_window (hs : s.StorageOk) (hw : s.WindowOk) : s.Inv where
  params := hs.params
  slotCount := hs.slotCount
  windowBound := hw.bound
  outstandingSent k hk := (hw.sent _ (s.slotOf_lt _)).mpr ⟨k, hk, rfl⟩
  openFits hopen := by
    have hprep := s.txOpen_iff.mp hopen
    refine ⟨(hw.opened _ (s.slotOf_lt _) hprep).2, fun k hk hki => ?_⟩
    have hsent := (hw.sent _ (s.slotOf_lt _)).mpr ⟨k, hk, hki⟩
    rw [hprep] at hsent
    cases hsent
  otherNone i hi hother hclosed := by
    cases hst : (s.slot i).status with
    | none => rfl
    | sent =>
      obtain ⟨k, hk, hki⟩ := (hw.sent i hi).mp hst
      exact absurd hki (hother k hk)
    | preparing =>
      have htx := (hw.opened i hi hst).1
      exact absurd ⟨s.txOpen_iff.mpr (htx ▸ hst), htx⟩ hclosed
  timerIff := hw.timer.trans (State.exists_sent_iff hw.sent).symm
  slotLen sl hsl := (hs.slots sl hsl).len
  payloads sl hsl := ⟨(hs.slots sl hsl).wf, (hs.slots sl hsl).within⟩
  rxLen := hs.rxLen
  rxBuf := hs.rxBuf
  overflowFull := hs.overflowFull
  faultCode := hs.faultCode

/-! ### The window, where the sequence registers stay -/

/-- Of the window, nothing but the sequence registers, the statuses, the timer flag and `W` matters. -/
theorem State.WindowOk.congr (h : s.WindowOk) (htx : t.txSeq = s.txSeq) (hack : t.ackSeq = s.ackSeq)
    (hparams : t.params = s.params) (htimer : t.timerArmed = s.timerArmed)
    (hstatus : ∀ i, (t.slot i).status = (s.slot i).status) : t.WindowOk := by
  have hout := State.outstanding_congr htx hack
  have hseq := State.slotOf_outstandingSeq_congr hparams hack
  have hslotTx : t.slotOf t.txSeq = s.slotOf s.txSeq := by rw [State.slotOf_congr hparams, htx]
  constructor
  · rw [hout, hparams]
    exact h.bound
  · intro i hi
    rw [hstatus, hout]
    simp only [hseq]
    exact h.sent i (hparams ▸ hi)
  · intro i hi hprep
    rw [hstatus] at hprep
    rw [hslotTx, hout, hparams]
    exact h.opened i (hparams ▸ hi) hprep
  · rw [htimer, hout]
    exact h.timer

/-! ### The window after START, FINISH, `AckUpto` and INIT -/

/-- 42 R181: below a full window, the slot of `TX_SEQ` is no outstanding one's. -/
theorem State.slotOf_txSeq_ne (hroom : s.outstanding < s.params.window.size) {k : Nat} (hk : k < s.outstanding) :
    s.slotOf (s.outstandingSeq k) ≠ s.slotOf s.txSeq := fun h => by
  rw [← s.outstandingSeq_outstanding] at h
  exact hk.ne (slotIndex_seqAdd_inj (hk.trans hroom) hroom h)

theorem State.WindowOk.start (h : s.WindowOk) (hcount : s.slots.length = s.params.window.size)
    (hroom : s.outstanding < s.params.window.size) {f : Slot → Slot} (hf : ∀ sl, (f sl).status = .preparing)
    (htx : t.txSeq = s.txSeq) (hack : t.ackSeq = s.ackSeq) (hparams : t.params = s.params)
    (htimer : t.timerArmed = s.timerArmed) (hslots : t.slots = s.slots.modify (s.slotOf s.txSeq) f) : t.WindowOk := by
  have hout := State.outstanding_congr htx hack
  have hseq := State.slotOf_outstandingSeq_congr hparams hack
  have hslotTx : t.slotOf t.txSeq = s.slotOf s.txSeq := by rw [State.slotOf_congr hparams, htx]
  have hslot {i : Nat} (hi : i < t.params.window.size) :
      t.slot i = if i = s.slotOf s.txSeq then f (s.slot i) else s.slot i :=
    State.slot_of_modify_inside hslots (by rwa [hcount, ← hparams])
  constructor
  · rw [hout, hparams]
    exact h.bound
  · intro i hi
    rw [hslot hi, hout]
    simp only [hseq]
    split
    · next htxi =>
      rw [hf]
      exact iff_of_false SlotStatus.noConfusion fun ⟨k, hk, hki⟩ =>
        State.slotOf_txSeq_ne hroom hk (hki.trans htxi)
    · exact h.sent i (hparams ▸ hi)
  · intro i hi hprep
    rw [hslotTx, hout, hparams]
    rw [hslot hi] at hprep
    split at hprep
    · next htxi => exact ⟨htxi, hroom⟩
    · exact h.opened i (hparams ▸ hi) hprep
  · rw [htimer, hout]
    exact h.timer

/-- 42 R189: the open packet becomes the newest outstanding one. -/
theorem State.WindowOk.finish (h : s.WindowOk) (hcount : s.slots.length = s.params.window.size) (hopen : s.txOpen = true)
    (hfin : s.finishPacket = .ok t) : t.WindowOk := by
  have hroom := (h.opened _ (s.slotOf_lt _) (s.txOpen_iff.mp hopen)).2
  have hout := State.finishPacket_outstanding hfin hroom
  rw [s.finishPacket_ok hopen] at hfin
  have hslots : t.slots = s.slots.modify (s.slotOf s.txSeq) fun sl => { sl with status := .sent, time := s.now } := by
    cases hfin; rfl
  have hslot {i : Nat} (hi : i < s.params.window.size) := State.slot_of_modify_inside (j := i) hslots (hcount ▸ hi)
  have hparams : t.params = s.params := by cases hfin; rfl
  have hack : t.ackSeq = s.ackSeq := by cases hfin; rfl
  have htimer : t.timerArmed = true := by cases hfin; rfl
  have hseq := State.slotOf_outstandingSeq_congr hparams hack
  constructor
  · rw [hout, hparams]
    exact hroom
  · intro i hi
    rw [hparams] at hi
    rw [hslot hi, hout]
    simp only [hseq]
    split
    · next htxi => exact iff_of_true rfl ⟨_, Nat.lt_succ_self _, by rw [s.outstandingSeq_outstanding, htxi]⟩
    · next htxi =>
      rw [h.sent i hi]
      refine ⟨fun ⟨k, hk, hki⟩ => ⟨k, Nat.lt_succ_of_lt hk, hki⟩, fun ⟨k, hk, hki⟩ => ?_⟩
      refine ⟨k, lt_of_le_of_ne (Nat.le_of_lt_succ hk) fun hkout => htxi ?_, hki⟩
      rw [← hki, hkout, s.outstandingSeq_outstanding]
  · intro i hi hprep
    rw [hparams] at hi
    rw [hslot hi] at hprep
    split at hprep
    · cases hprep
    · next htxi => exact absurd (h.opened i hi hprep).1 htxi
  · rw [htimer, hout]
    simp

/-- 45 R280, R281: an ACK leaves the newer outstanding packets, and the timer armed if there are any. -/
theorem State.WindowOk.ackUpto (h : s.WindowOk) (hcount : s.slots.length = s.params.window.size) (p : Seq) :
    (s.ackUpto p).WindowOk := by
  rcases s.ackUpto_cases p with hnoop | ⟨h₀, h₁, -⟩
  · rwa [hnoop]
  have hack := State.ackUpto_advance_ackSeq h₀ h₁
  have hparams := s.ackUpto_params p
  have hout : (s.ackUpto p).outstanding = s.outstanding - seqDist s.ackSeq p := by
    rw [State.outstanding, hack, s.ackUpto_txSeq]
    exact seqDist_sub_of_le h₁
  have hseq (k : Nat) : (s.ackUpto p).slotOf ((s.ackUpto p).outstandingSeq k)
      = s.slotOf (s.outstandingSeq (seqDist s.ackSeq p + k)) := by
    rw [State.slotOf, State.outstandingSeq, hparams, hack, State.slotOf, State.outstandingSeq, ← seqAdd_seqAdd,
      seqAdd_seqDist]
  have hsent : ∀ i < (s.ackUpto p).params.window.size, ((s.ackUpto p).slot i).status = .sent
      ↔ ∃ k < (s.ackUpto p).outstanding, (s.ackUpto p).slotOf ((s.ackUpto p).outstandingSeq k) = i := by
    intro i hi
    rw [hparams] at hi
    rw [State.ackUpto_advance_slot h₀ h₁ (hcount ▸ hi), hout]
    simp only [hseq]
    split
    · next hcleared =>
      obtain ⟨j, hj, hji⟩ := hcleared
      refine iff_of_false SlotStatus.noConfusion fun ⟨k, hk, hki⟩ => ?_
      have hbound := h.bound
      have := slotIndex_seqAdd_inj (w := s.params.window) (a := s.ackSeq) (by omega) (by omega) (hji.trans hki.symm)
      omega
    · next hkept =>
      rw [h.sent i hi]
      refine ⟨fun ⟨k, hk, hki⟩ => ?_, fun ⟨k, hk, hki⟩ => ⟨_, by omega, hki⟩⟩
      have hle : seqDist s.ackSeq p ≤ k := Nat.le_of_not_lt fun hlt => hkept ⟨k, hlt, hki⟩
      exact ⟨k - seqDist s.ackSeq p, by omega, by rwa [Nat.add_sub_cancel' hle]⟩
  refine ⟨?_, hsent, fun i hi hprep => ?_, ?_⟩
  · rw [hout, hparams]
    exact (Nat.sub_le _ _).trans h.bound
  · rw [hparams] at hi
    rw [State.ackUpto_advance_slot h₀ h₁ (hcount ▸ hi)] at hprep
    rw [State.slotOf, hparams, s.ackUpto_txSeq, hout]
    split at hprep
    · cases hprep
    · obtain ⟨htx, hroom⟩ := h.opened i hi hprep
      exact ⟨htx, by omega⟩
  · rw [State.ackUpto_advance_timerArmed h₀ h₁, State.ackUpto_advance_anySent h₀ h₁, ← State.exists_sent_iff hsent,
      hparams, hcount]

/-- 70 R350: INIT clears a slot's registers and leaves its bytes. -/
theorem State.initialise_slot (s : State) (i : Nat) :
    s.initialise.slot i = { s.slot i with status := .none, len := 0, time := 0 } := by
  rw [State.slot, List.getD_eq_getElem?_getD, State.slot, List.getD_eq_getElem?_getD]
  cases h : s.slots[i]? <;> simp [State.initialise, h, Slot.reset]

@[simp] theorem State.initialise_outstanding (s : State) : s.initialise.outstanding = 0 := seqDist_self 0

theorem State.windowOk_initialise (s : State) : s.initialise.WindowOk where
  bound := by simp
  sent i _ := by simp [s.initialise_slot]
  opened i _ hprep := by simp [s.initialise_slot] at hprep
  timer := by simp

end Sys2Proof.Machine
end

section
/-! PROOFS. Every step keeps the invariants (10 R49): command by command, the stored values and the window. -/

namespace Sys2Proof.Machine

variable {s t : State}

/-! ### `AckUpto` and the slots' stored values -/

theorem State.forall_mem_clearSlots {p : Slot → Prop} (h : ∀ sl ∈ s.slots, p sl)
    (hp : ∀ sl, p sl → p { sl with status := .none }) (q : Seq) (n : Nat) : ∀ sl ∈ (s.clearSlots q n).slots, p sl := by
  induction n with
  | zero => exact h
  | succ n ih =>
    rw [State.clearSlots_succ]
    exact forall_mem_modify ih hp

theorem State.StorageOk.ackUpto (h : s.StorageOk) (p : Seq) : (s.ackUpto p).StorageOk := by
  rcases s.ackUpto_cases p with hnoop | ⟨h₀, h₁, -⟩
  · rwa [hnoop]
  · have hslots : ∀ sl ∈ (s.ackUpto p).slots, sl.Fits s.params.maxPayload := by
      rw [State.ackUpto_advance_slots h₀ h₁]
      exact State.forall_mem_clearSlots h.slots (fun _ hsl => ⟨hsl.len, hsl.wf, hsl.within⟩) _ _
    have hcount : (s.ackUpto p).slots.length = s.params.window.size :=
      (State.ackUpto_advance_length h₀ h₁).trans h.slotCount
    rw [s.ackUpto_eq p]
    exact { h with slotCount := hcount, slots := hslots }

theorem State.Inv.ackUpto (h : s.Inv) (p : Seq) : (s.ackUpto p).Inv :=
  State.inv_of_storage_window (h.storageOk.ackUpto p) (h.windowOk.ackUpto h.slotCount p)

theorem State.Inv.afterPiggyback (h : s.Inv) (ctrl : Byte) : (s.afterPiggyback ctrl).Inv := by
  rcases s.afterPiggyback_cases ctrl with e | e <;> rw [e]
  · exact h
  · exact h.ackUpto _

/-! ### What leaves the window alone -/

/-- The same sequence registers, parameters, timer flag and slots: the same window. -/
theorem State.WindowOk.congr_slots (h : s.WindowOk) (htx : t.txSeq = s.txSeq) (hack : t.ackSeq = s.ackSeq)
    (hparams : t.params = s.params) (htimer : t.timerArmed = s.timerArmed) (hslots : t.slots = s.slots) : t.WindowOk :=
  h.congr htx hack hparams htimer fun i => by rw [State.slot_eq_of_slots hslots]

/-- A changed slot that keeps its status. -/
theorem State.WindowOk.modify (h : s.WindowOk) {i : Nat} {f : Slot → Slot} (htx : t.txSeq = s.txSeq)
    (hack : t.ackSeq = s.ackSeq) (hparams : t.params = s.params) (htimer : t.timerArmed = s.timerArmed)
    (hslots : t.slots = s.slots.modify i f) (hf : ∀ sl, (f sl).status = sl.status) : t.WindowOk :=
  h.congr htx hack hparams htimer fun j => by
    rcases State.slot_of_modify hslots j with e | ⟨-, e⟩ <;> rw [e]
    exact hf _

/-! ### FEED -/

/-- The next frame opened (43 R221), whatever else of the receive path and the output moved. -/
theorem State.Inv.openedFrame (h : s.Inv) {rx : Seq} {crc tx : Crc} {es : List Event} {fs : FrameState} :
    ({ s with frameState := fs, rxCrc := crc, rxLen := 0, rxOvf := false, rxSeq := rx, txCrc := tx, out := es } : State).Inv :=
  State.inv_of_storage_window
    { h.storageOk with rxLen := Nat.zero_le _, overflowFull := fun hovf => absurd hovf Bool.false_ne_true }
    (h.windowOk.congr_slots rfl rfl rfl rfl rfl)

/-- 43 R227: a byte is stored below `RX_BUF_SIZE`, or it overflows a full buffer. -/
theorem State.Inv.storedByte (h : s.Inv) (v : Byte) (hroom : s.rxLen < s.params.rxBufSize) {crc : Crc} :
    ({ s with frameState := .inFrame, rxBuf := s.rxBuf.write s.rxLen v, rxLen := s.rxLen + 1, rxCrc := crc } : State).Inv :=
  State.inv_of_storage_window
    { h.storageOk with
      rxLen := hroom
      rxBuf := ⟨Memory.wf_write h.rxBuf.1 _ _, Memory.within_write h.rxBuf.2 hroom _⟩
      overflowFull := fun hovf => absurd (h.overflowFull hovf) hroom.ne }
    (h.windowOk.congr_slots rfl rfl rfl rfl rfl)

theorem State.Inv.overflowed (h : s.Inv) (hfull : ¬ s.rxLen < s.params.rxBufSize) {crc : Crc} :
    ({ s with frameState := .inFrame, rxOvf := true, rxCrc := crc } : State).Inv :=
  State.inv_of_storage_window
    { h.storageOk with overflowFull := fun _ => le_antisymm h.rxLen (Nat.le_of_not_lt hfull) }
    (h.windowOk.congr_slots rfl rfl rfl rfl rfl)

theorem State.Inv.feedByte (h : s.Inv) {b : Byte} (hb : s.feedByte b = .ok t) : t.Inv := by
  rcases s.feedByte_ok hb with ⟨-, -, rfl⟩ | ⟨-, -, -, rfl⟩ | ⟨-, -, -, rfl⟩ | ⟨-, -, -, rfl⟩ | ⟨-, -, -, rfl⟩
      | ⟨-, -, rfl⟩ | ⟨-, -, -, rfl⟩ | ⟨v, -, ⟨hroom, rfl⟩ | ⟨hfull, -, rfl⟩⟩
  · exact h.openedFrame
  · exact h
  · exact h.openedFrame
  · exact (h.afterPiggyback _).openedFrame
  · exact (h.afterPiggyback _).openedFrame
  · exact (h.ackUpto _).openedFrame
  · exact State.inv_of_storage_window { h.storageOk with } (h.windowOk.congr_slots rfl rfl rfl rfl rfl)
  · exact h.storedByte v hroom
  · exact h.overflowed hfull

/-! ### The commands of the application and the timer -/

theorem State.Inv.startPacket (h : s.Inv) (hb : s.startPacket = .ok t) : t.Inv := by
  rcases s.startPacket_cases with ⟨-, e⟩ | ⟨-, -, e⟩ | ⟨-, hroom, e⟩ <;> rw [e] at hb <;> cases hb
  refine State.inv_of_storage_window
    { h.storageOk with slotCount := (List.length_modify _ _ _).trans h.slotCount, slots := ?_ }
    (h.windowOk.start h.slotCount (lt_of_le_of_ne h.windowBound hroom) (fun _ => rfl) rfl rfl rfl rfl rfl)
  exact forall_mem_modify h.storageOk.slots fun _ hsl => ⟨Nat.zero_le _, hsl.wf, hsl.within⟩

/-- 42 R185: the one slot that grows is the open packet's, below `MAX_PAYLOAD`. -/
theorem State.Inv.appendByte (h : s.Inv) {b : Byte} (hb : s.appendByte b = .ok t) : t.Inv := by
  rcases s.appendByte_cases b with ⟨-, e⟩ | ⟨-, -, e⟩ | ⟨-, hroom, e⟩ <;> rw [e] at hb <;> cases hb
  refine State.inv_of_storage_window
    { h.storageOk with slotCount := (List.length_modify _ _ _).trans h.slotCount, slots := fun sl hsl => ?_ }
    (h.windowOk.modify rfl rfl rfl rfl rfl fun _ => rfl)
  obtain ⟨j, hj, rfl⟩ := List.mem_iff_getElem.mp hsl
  rw [List.length_modify] at hj
  have hfits := h.storageOk.slots _ (List.getElem_mem hj)
  rw [List.getElem_modify]
  split
  · next htx =>
    have hlen : (s.slots[j]).len < s.params.maxPayload := by
      subst htx
      simpa [State.slot, hj] using hroom
    exact ⟨hlen, Memory.wf_write hfits.wf _ _, Memory.within_write hfits.within hlen _⟩
  · exact hfits

theorem State.Inv.finishPacket (h : s.Inv) (hb : s.finishPacket = .ok t) : t.Inv := by
  have hfin := hb
  rcases s.finishPacket_cases with ⟨-, e⟩ | ⟨hopen, e⟩ <;> rw [e] at hb <;> cases hb
  refine State.inv_of_storage_window
    { h.storageOk with slotCount := (List.length_modify _ _ _).trans h.slotCount, slots := ?_ }
    (h.windowOk.finish h.slotCount hopen hfin)
  exact forall_mem_modify h.storageOk.slots fun _ hsl => ⟨hsl.len, hsl.wf, hsl.within⟩

/-- Arming the timer keeps the invariants where it is armed already. -/
theorem State.Inv.armTimer (h : s.Inv) (harmed : s.timerArmed = true) (d : Time) : (s.armTimer d).Inv :=
  State.inv_of_storage_window { h.storageOk with } (h.windowOk.congr_slots rfl rfl rfl harmed.symm rfl)

theorem State.Inv.retransmit (h : s.Inv) (q : Seq) : (s.retransmit q).Inv := by
  rw [State.retransmit_eq]
  refine State.inv_of_storage_window
    { h.storageOk with slotCount := (List.length_modify _ _ _).trans h.slotCount, slots := ?_ }
    (h.windowOk.modify rfl rfl rfl rfl rfl fun _ => rfl)
  exact forall_mem_modify h.storageOk.slots fun _ hsl => ⟨hsl.len, hsl.wf, hsl.within⟩

theorem State.Inv.timerArmed_of_anySent (h : s.Inv) (hany : s.anySent = true) : s.timerArmed = true := by
  obtain ⟨i, hi, hsent⟩ := s.anySent_iff_slot.mp hany
  exact h.timerIff.mpr ⟨i, h.slotCount ▸ hi, hsent⟩

@[simp] theorem State.retransmit_timerArmed (s : State) (q : Seq) : (s.retransmit q).timerArmed = s.timerArmed := by
  rw [State.retransmit_eq]

/-- 45 R286: a TICK arms the timer only where a slot is SENT, so where it is armed. -/
theorem State.Inv.checkTimeouts (h : s.Inv) : s.checkTimeouts.Inv := by
  rcases s.checkTimeouts_cases with ⟨-, e⟩ | ⟨hany, -, e⟩ | ⟨q, hany, -, e⟩ <;> rw [e]
  · exact h
  · exact h.armTimer (h.timerArmed_of_anySent hany) _
  · exact (h.retransmit q).armTimer ((s.retransmit_timerArmed q).trans (h.timerArmed_of_anySent hany)) _

/-! ### INIT, faults, the port -/

theorem State.Inv.initialise (h : s.Inv) : s.initialise.Inv := by
  refine State.inv_of_storage_window
    { h.storageOk with
      slotCount := (List.length_map _).trans h.slotCount
      slots := fun sl hsl => ?_
      rxLen := Nat.zero_le _
      overflowFull := fun hovf => absurd hovf Bool.false_ne_true
      faultCode := Nat.zero_le _ }
    s.windowOk_initialise
  obtain ⟨old, hold, rfl⟩ := List.mem_map.mp hsl
  have hfits := h.storageOk.slots old hold
  exact ⟨Nat.zero_le _, hfits.wf, hfits.within⟩

theorem State.Inv.takeFault (h : s.Inv) (r : Raised) : (s.takeFault r).Inv :=
  State.inv_of_storage_window { h.storageOk with faultCode := r.name.code_le } (h.windowOk.congr_slots rfl rfl rfl rfl rfl)

theorem State.Inv.acceptRequest (h : s.Inv) (r : Request) (rest : List Request) : (s.acceptRequest r rest).Inv :=
  State.inv_of_storage_window { h.storageOk with } (h.windowOk.congr_slots rfl rfl rfl rfl rfl)

theorem State.Inv.outputs (h : s.Inv) (es : List Event) : (s.outputs es).Inv :=
  State.inv_of_storage_window { h.storageOk with } (h.windowOk.congr_slots rfl rfl rfl rfl rfl)

/-! ### Every command and every step -/

theorem exec_keeps_inv {i : Instr} (h : s.Inv) (hstep : exec i s = .next t) : t.Inv := by
  rcases exec_cases s hstep with ⟨-, rfl⟩ | ⟨-, -, rfl⟩ | ⟨-, b, -, hb | ⟨r, -, rfl⟩⟩ | ⟨-, -, hb | ⟨r, -, rfl⟩⟩
      | ⟨-, b, -, hb | ⟨r, -, rfl⟩⟩ | ⟨-, -, hb | ⟨r, -, rfl⟩⟩ | ⟨-, -, rfl⟩ | ⟨-, -, rfl⟩
  · exact h.initialise
  · exact h
  · exact h.feedByte hb
  · exact h.takeFault r
  · exact h.startPacket hb
  · exact h.takeFault r
  · exact h.appendByte hb
  · exact h.takeFault r
  · exact h.finishPacket hb
  · exact h.takeFault r
  · exact h.outputs _
  · exact h.checkTimeouts

/-- 30 R103, R104: an illegal word faults, or is not taken. -/
theorem rejectWord_cases {e : DecodeError} (h : rejectWord e s = .next t) : t = s ∨ ∃ r, t = s.takeFault r := by
  rcases State.perform_cases s (body := fun _ => .error ⟨.illegalCommand, rejectedOpcode e⟩) h with
    ⟨-, rfl⟩ | ⟨-, hb⟩ | ⟨r, -, -, rfl⟩
  · exact .inl rfl
  · cases hb
  · exact .inr ⟨r, rfl⟩

/-- Settles O53: the word at the port is a command, which keeps the invariants, or it faults, or there is none. -/
theorem stepKeepsInvariants : Obligations.StepKeepsInvariants := by
  intro s t h hstep
  rcases step_cases s with ⟨-, e⟩ | ⟨r, rest, i, -, -, e⟩ | ⟨r, rest, d, -, -, e⟩ <;> rw [e] at hstep
  · cases hstep
    exact h
  · exact exec_keeps_inv (h.acceptRequest r rest) hstep
  · rcases rejectWord_cases hstep with rfl | ⟨f, rfl⟩
    · exact h.acceptRequest r rest
    · exact (h.acceptRequest r rest).takeFault f

end Sys2Proof.Machine
end

section
/-! PROOFS. What the CRC and the escape codec guarantee a frame (40 R145 to R150, 41 R165): a body with its trailer is valid,
errors are detected under the default recurrence, and the wire form is injective and of bounded length.

The default recurrence is eight bit steps after an exclusive-or. A bit step is additive and loses nothing: bit 15 of its result
tells whether the polynomial was added. So the recurrence is injective in the running CRC and in the byte. -/

namespace Sys2Proof.Machine

/-! ### A body with its trailer -/

/-- Settles O15: the CRC runs over the trailer from the CRC of the body, and the law of R143 ends it at 0. -/
theorem trailerMakesFrameValid : Obligations.TrailerMakesFrameValid := by
  intro u pre
  rw [crcOf_append]
  exact crcUpdate_meetsZeroResidue u (crcOf u pre)

/-! ### The default recurrence is injective -/

theorem crcBitStep_eq_zero {c : Crc} (h : crcBitStep c = 0#16) : c = 0#16 := by
  have hlow : c.getLsbD 0 = false := by
    by_contra hodd
    have htop : (crcBitStep c).getLsbD 15 = true := by
      rw [crcBitStep, if_pos (by simpa using hodd)]
      simp
    rw [h] at htop
    simp at htop
  rw [crcBitStep, hlow, if_neg Bool.false_ne_true] at h
  ext i hi
  cases i with
  | zero => simpa using hlow
  | succ k =>
    have hbit : (c >>> 1).getLsbD k = false := by rw [h]; simp
    rw [← BitVec.getLsbD_eq_getElem, BitVec.getElem_zero]
    simpa [Nat.add_comm] using hbit

theorem crcBitStep_injective : Function.Injective crcBitStep := fun x y h => by
  have hzero : crcBitStep (x ^^^ y) = 0#16 := by rw [crcBitStep_xor, h, BitVec.xor_self]
  exact BitVec.xor_eq_zero_iff.mp (crcBitStep_eq_zero hzero)

theorem crcUpdateDefault_eq_iff {c c' : Crc} {b b' : Byte} :
    crcUpdateDefault c b = crcUpdateDefault c' b' ↔ c ^^^ b.setWidth 16 = c' ^^^ b'.setWidth 16 := by
  simp only [crcUpdateDefault_eq_bitSerial, crcUpdateBitSerial_eq_iterate]
  exact (crcBitStep_injective.iterate 8).eq_iff

theorem crcUpdateDefault_left_injective (b : Byte) : Function.Injective fun c => crcUpdateDefault c b := fun _ _ h =>
  (BitVec.xor_left_inj _).mp (crcUpdateDefault_eq_iff.mp h)

theorem crcUpdateDefault_right_injective (c : Crc) : Function.Injective (crcUpdateDefault c) := fun x y h => by
  have hwide := (BitVec.xor_right_inj _).mp (crcUpdateDefault_eq_iff.mp h)
  rw [← crcLow_setWidth x, hwide, crcLow_setWidth]

theorem foldl_crcUpdateDefault_injective (bytes : List Byte) :
    Function.Injective fun c => bytes.foldl (crcUpdate .standard) c := by
  induction bytes with
  | nil => exact fun _ _ h => h
  | cons b rest ih => exact fun _ _ h => crcUpdateDefault_left_injective b (ih h)

/-- Two strings that differ in one byte have different default CRCs. -/
theorem crcOf_standard_modify_ne {body : List Byte} {k : Nat} {f : Byte → Byte} (hk : k < body.length)
    (hf : ∀ v, f v ≠ v) : crcOf .standard (body.modify k f) ≠ crcOf .standard body := by
  intro h
  have hbody : body = body.take k ++ body[k] :: body.drop (k + 1) := by
    rw [← List.drop_eq_getElem_cons hk, List.take_append_drop]
  have hchanged : body.modify k f = body.take k ++ f body[k] :: body.drop (k + 1) :=
    List.modify_eq_take_cons_drop hk
  rw [hchanged] at h
  conv_rhs at h => rw [hbody]
  rw [crcOf_append, crcOf_append, List.foldl_cons, List.foldl_cons] at h
  exact hf _ (crcUpdateDefault_right_injective _ (foldl_crcUpdateDefault_injective _ h))

theorem xor_one_bit_ne {j : Nat} (hj : j < 8) (v : Byte) : v ^^^ (1#8 <<< j) ≠ v := by
  have hbit : ∀ j < 8, (1#8 <<< j) ≠ 0 := by decide
  intro h
  exact hbit j hj ((BitVec.xor_right_inj _).mp (h.trans BitVec.xor_zero.symm))

/-- Settles O14: the changed body's CRC differs from the CRC 0 of the body. -/
theorem singleBitFlipDetected : Obligations.SingleBitFlipDetected := by
  intro body k j hk hj hvalid hflipped
  exact crcOf_standard_modify_ne hk (xor_one_bit_ne hj) (hflipped.trans hvalid.symm)

/-! ### Bodies of 2 bytes -/

/-- The only update to 0 is by a byte equal to the running CRC. -/
theorem crcUpdateDefault_eq_zero_iff {c : Crc} {b : Byte} : crcUpdateDefault c b = 0#16 ↔ c = b.setWidth 16 := by
  rw [← crcUpdateDefault_zero_zero, crcUpdateDefault_eq_iff, BitVec.setWidth_zero, BitVec.xor_zero]
  exact BitVec.xor_eq_zero_iff

/-- From `CRC_INIT`, one byte brings the CRC below 0x100 only if it is 0xFF. -/
theorem crcUpdateDefault_init_eq_setWidth_iff (a b : Byte) :
    crcUpdateDefault Config.crcInit a = b.setWidth 16 ↔ a = 0xFF ∧ b = 0xFF := by
  have hhigh : ∀ a : Byte, crcHigh (crcUpdateDefault Config.crcInit a) = 0 → a = 0xFF := by decide
  have hlow : crcLow (crcUpdateDefault Config.crcInit 0xFF) = 0xFF := by decide
  refine ⟨fun h => ?_, fun ⟨ha, hb⟩ => by subst ha hb; decide⟩
  obtain rfl := hhigh a (by rw [h, crcHigh_setWidth])
  exact ⟨rfl, by rw [← hlow, h, crcLow_setWidth]⟩

/-- Settles O13: the second byte must equal the CRC of the first, and so the first must bring the high byte to 0. -/
theorem twoByteValidBodyIsFFFF : Obligations.TwoByteValidBodyIsFFFF := fun a b =>
  crcUpdateDefault_eq_zero_iff.trans (crcUpdateDefault_init_eq_setWidth_iff a b)

/-! ### The wire form -/

theorem length_esc (P : Params) (v : Byte) : 1 ≤ (esc P v).length ∧ (esc P v).length ≤ 2 := by
  by_cases h : v = P.frameByte ∨ v = P.escapeByte
  · simp [esc_reserved h]
  · simp [esc_unreserved h]

theorem length_stuffed_bounds (P : Params) (body : List Byte) :
    body.length ≤ (body.map fun v => (esc P v).length).sum
      ∧ (body.map fun v => (esc P v).length).sum ≤ 2 * body.length := by
  induction body with
  | nil => simp
  | cons v rest ih =>
    have hv := length_esc P v
    simp only [List.map_cons, List.sum_cons, List.length_cons]
    omega

theorem length_frameWire (P : Params) (body : List Byte) :
    (frameWire P body).length = 2 + (body.map fun v => (esc P v).length).sum := by
  simp only [frameWire, List.length_append, List.length_flatMap, List.length_singleton]
  omega

/-- Settles O18: two delimiters, and one or two bytes for each body byte. -/
theorem wireLengthBounds : Obligations.WireLengthBounds := by
  intro P body n hn
  have hbounds := length_stuffed_bounds P body
  have hlen := length_frameWire P body
  exact ⟨hlen, by omega, by omega⟩

/-! ### The wire form is injective -/

/-- What follows the wire form of one byte decides nothing: the escape byte tells where that form ends (41 R164). -/
theorem esc_append_inj {P : Params} {v w : Byte} {xs ys : List Byte} (h : esc P v ++ xs = esc P w ++ ys) :
    v = w ∧ xs = ys := by
  by_cases hv : v = P.frameByte ∨ v = P.escapeByte <;> by_cases hw : w = P.frameByte ∨ w = P.escapeByte
  · simp only [esc_reserved hv, esc_reserved hw, List.cons_append, List.nil_append, List.cons.injEq, true_and] at h
    exact ⟨(BitVec.xor_left_inj _).mp h.1, h.2⟩
  · simp only [esc_reserved hv, esc_unreserved hw, List.cons_append, List.nil_append, List.cons.injEq] at h
    exact absurd (.inr h.1.symm) hw
  · simp only [esc_unreserved hv, esc_reserved hw, List.cons_append, List.nil_append, List.cons.injEq] at h
    exact absurd (.inr h.1) hv
  · simpa only [esc_unreserved hv, esc_unreserved hw, List.cons_append, List.nil_append, List.cons.injEq] using h

theorem stuffed_injective (P : Params) : Function.Injective fun body : List Byte => body.flatMap (esc P) := by
  have hnil {v : Byte} {rest : List Byte} : [] ≠ (v :: rest).flatMap (esc P) := fun h => by
    have hlen := congrArg List.length h
    have hv := length_esc P v
    simp only [List.length_nil, List.flatMap_cons, List.length_append] at hlen
    omega
  intro xs
  induction xs with
  | nil =>
    intro ys h
    cases ys with
    | nil => rfl
    | cons w rest => exact absurd h hnil
  | cons v xs ih =>
    intro ys h
    cases ys with
    | nil => exact absurd h.symm hnil
    | cons w ys =>
      obtain ⟨rfl, hrest⟩ := esc_append_inj h
      rw [ih hrest]

/-- Settles O19: byte by byte, since no `Esc(v)` begins another. -/
theorem stuffingIsInjective : Obligations.StuffingIsInjective := fun P _ _ _ h => stuffed_injective P h

end Sys2Proof.Machine
end

section
/-! PROOFS. The power-on state, INIT and the debug read-out (10 R30, R56, 70 R350, R351), register by register. -/

namespace Sys2Proof.Machine

/-- Settles O8: each register of `State.powerOn`, and its slots, all of them the reset slot. -/
theorem powerOnRegisterValues : Obligations.PowerOnRegisterValues := by
  refine ⟨fun P => ⟨rfl, rfl, rfl, rfl, rfl, rfl, rfl, rfl, rfl, rfl, rfl, List.length_replicate, fun sl hsl => ?_, rfl⟩, rfl⟩
  rw [State.eq_reset_of_mem_powerOn hsl]
  exact ⟨rfl, rfl, rfl⟩

/-- Settles O10: the cleared slots without their bytes are `W` reset slots, and INIT keeps the bytes and the model's own fields. -/
theorem initGivesPowerOnState : Obligations.InitGivesPowerOnState := by
  intro s hW
  have hslots : s.initialise.slots.map (fun sl => { sl with payload := Memory.empty })
      = List.replicate s.params.window.size Slot.reset := by
    rw [State.initialise, List.map_map, ← hW]
    change s.slots.map (fun _ => Slot.reset) = _
    exact List.map_const'
  refine ⟨s.initialise, rfl, ?_, fun j a => ?_, fun a => rfl, rfl, rfl, rfl⟩
  · rw [hslots]
    rfl
  · rw [s.initialise_slot]

/-! ### The debug read-out -/

theorem State.debugSlot_present {s : State} {base i : Nat} (f : Slot → Nat) (hi : i < s.params.window.size) :
    s.debugSlot base (base + i) f = some (f (s.slot i)) := by
  rw [State.debugSlot, Nat.add_sub_cancel_left, if_pos hi]

theorem State.debugSlot_absent {s : State} {base i : Nat} (f : Slot → Nat) (hi : s.params.window.size ≤ i) :
    s.debugSlot base (base + i) f = none := by
  rw [State.debugSlot, Nat.add_sub_cancel_left, if_neg (Nat.not_lt.mpr hi)]

/-- 10 R30: the twelve slot register numbers, four a kind. -/
theorem State.debugRead_slot (s : State) {i : Nat} (hi : i < 4) :
    s.debugRead (0x10 + BitVec.ofNat 8 i) = s.debugSlot 0x10 (0x10 + i) (fun sl => sl.status.code)
    ∧ s.debugRead (0x14 + BitVec.ofNat 8 i) = s.debugSlot 0x14 (0x14 + i) (fun sl => sl.len)
    ∧ s.debugRead (0x18 + BitVec.ofNat 8 i) = s.debugSlot 0x18 (0x18 + i) fun sl => sl.time.toNat := by
  interval_cases i <;> exact ⟨rfl, rfl, rfl⟩

/-- Log 12: a number outside the table reads nothing. -/
theorem State.debugRead_outside (s : State) {r : Byte} (h : (0x0A < r.toNat ∧ r.toNat < 0x10) ∨ 0x1C ≤ r.toNat) :
    s.debugRead r = none := by
  unfold State.debugRead
  split
  case h_24 => rfl
  all_goals omega

theorem windowSize_le_four (w : WindowSize) : w.size ≤ 4 := by
  cases w <;> decide

/-- Settles O58: each number of the table by evaluation, the slot numbers by whether their slot exists. -/
theorem debugReadOut : Obligations.DebugReadOut := by
  intro s
  refine ⟨rfl, rfl, rfl, rfl, rfl, rfl, rfl, rfl, rfl, rfl, rfl, fun i hi => ?_, fun i hi h4 => ?_,
    fun r => s.debugRead_outside, fun r v => rfl⟩
  · obtain ⟨hstatus, hlen, htime⟩ := s.debugRead_slot (hi.trans_le (windowSize_le_four _))
    rw [hstatus, hlen, htime]
    exact ⟨State.debugSlot_present _ hi, State.debugSlot_present _ hi, State.debugSlot_present _ hi⟩
  · obtain ⟨hstatus, hlen, htime⟩ := s.debugRead_slot h4
    rw [hstatus, hlen, htime]
    exact ⟨State.debugSlot_absent _ hi, State.debugSlot_absent _ hi, State.debugSlot_absent _ hi⟩

end Sys2Proof.Machine
end

section
/-! PROOFS. A whole packet (42 R180 to R198, 45 R284, R286): SEND, an APPENDS that overflows, and the TICK that sends a packet
again.

The open packet's slot, `TX_CRC` and the output move together over APPENDs; `State.appendBytes` says how, and it composes along
the payload. So START, APPENDs and FINISH change one slot once and emit one frame. -/

namespace Sys2Proof.Machine

variable {s : State}

/-! ### AVAIL -/

/-- Settles O24: R193's formula is the window size less `OUT`, modulo 8; below the window size it is the difference. -/
theorem availIsFreeWindow : Obligations.AvailIsFreeWindow := fun s hok =>
  ⟨s.available, exec_avail s hok, s.available_toNat, State.available_add_outstanding⟩

/-! ### APPENDs -/

theorem Memory.writeBytes_append (m : Memory) (lo : Nat) (xs ys : List Byte) :
    m.writeBytes lo (xs ++ ys) = (m.writeBytes lo xs).writeBytes (lo + xs.length) ys := by
  induction xs generalizing m lo with
  | nil => rfl
  | cons v rest ih =>
    rw [List.cons_append, Memory.writeBytes, ih, Memory.writeBytes, List.length_cons, Nat.add_assoc, Nat.add_comm 1]

/-- The state after APPEND of each byte of `p` to the open packet, with room for all of them (42 R185). -/
def State.appendBytes (s : State) (p : List Byte) : State :=
  { s with
    slots := s.slots.modify (s.slotOf s.txSeq) fun sl =>
      { sl with len := sl.len + p.length, payload := sl.payload.writeBytes sl.len p }
    txCrc := p.foldl (crcUpdate s.params.crcUpdate) s.txCrc
    out := s.out ++ (p.flatMap (esc s.params)).map .emit }

theorem State.appendBytes_nil (s : State) : s.appendBytes [] = s := by
  have hslots : s.slots.modify (s.slotOf s.txSeq) (fun sl => { sl with len := sl.len, payload := sl.payload }) = s.slots :=
    List.modify_id _ _
  simp only [State.appendBytes, List.length_nil, Nat.add_zero, Memory.writeBytes, hslots, List.foldl_nil, List.flatMap_nil,
    List.map_nil, List.append_nil]

theorem State.appendBytes_append (s : State) (xs ys : List Byte) :
    (s.appendBytes xs).appendBytes ys = s.appendBytes (xs ++ ys) := by
  simp [State.appendBytes, State.slotOf, modify_twice, Memory.writeBytes_append, Nat.add_assoc]

theorem State.appendByte_eq_appendBytes (b : Byte) (hopen : s.txOpen = true)
    (hroom : (s.slot (s.slotOf s.txSeq)).len < s.params.maxPayload) : s.appendByte b = .ok (s.appendBytes [b]) := by
  rw [s.appendByte_ok b hopen hroom, State.appendBytes, List.flatMap_singleton]
  rfl

/-- The open packet's slot, once `p` is appended. -/
theorem State.appendBytes_slot (hopen : s.txOpen = true) (p : List Byte) :
    (s.appendBytes p).slot (s.slotOf s.txSeq) =
      { s.slot (s.slotOf s.txSeq) with
        len := (s.slot (s.slotOf s.txSeq)).len + p.length
        payload := (s.slot (s.slotOf s.txSeq)).payload.writeBytes (s.slot (s.slotOf s.txSeq)).len p } := by
  have hinside : s.slotOf s.txSeq < s.slots.length := s.slot_inside (by simp [s.txOpen_iff.mp hopen])
  rw [State.slot_of_modify_inside (t := s.appendBytes p) rfl hinside, if_pos rfl]

theorem State.appendBytes_txOpen (hopen : s.txOpen = true) (p : List Byte) : (s.appendBytes p).txOpen = true := by
  rw [State.txOpen_iff]
  exact (congrArg Slot.status (State.appendBytes_slot hopen p)).trans (s.txOpen_iff.mp hopen)

theorem State.appendBytes_len (hopen : s.txOpen = true) (p : List Byte) :
    ((s.appendBytes p).slot ((s.appendBytes p).slotOf (s.appendBytes p).txSeq)).len
      = (s.slot (s.slotOf s.txSeq)).len + p.length :=
  congrArg Slot.len (State.appendBytes_slot hopen p)

theorem State.appendBytes_payload (hopen : s.txOpen = true) (p : List Byte) :
    ((s.appendBytes p).slot (s.slotOf s.txSeq)).payload
      = (s.slot (s.slotOf s.txSeq)).payload.writeBytes (s.slot (s.slotOf s.txSeq)).len p :=
  congrArg Slot.payload (State.appendBytes_slot hopen p)

/-- 30 R114: APPENDS of a payload that fits. -/
theorem execAll_appends (hok : s.faultCode = 0) (hopen : s.txOpen = true) (p : List Byte)
    (hroom : (s.slot (s.slotOf s.txSeq)).len + p.length ≤ s.params.maxPayload) :
    execAll (appends p) s = .next (s.appendBytes p) := by
  induction p generalizing s with
  | nil =>
    rw [s.appendBytes_nil]
    rfl
  | cons b rest ih =>
    rw [List.length_cons] at hroom
    have hb := exec_append_ok s hok (State.appendByte_eq_appendBytes b hopen (by omega))
    have hrest := ih (s := s.appendBytes [b]) hok (State.appendBytes_txOpen hopen [b]) (by
      rw [State.appendBytes_len hopen, List.length_singleton]
      change _ ≤ s.params.maxPayload
      omega)
    rw [appends, List.map_cons, execAll_cons_next hb]
    exact hrest.trans (congrArg _ (s.appendBytes_append [b] rest))

/-! ### SEND -/

/-- The state after START, APPENDs of `p` and FINISH (30 R114). -/
def State.afterSend (s : State) (p : List Byte) : State :=
  { s with
    slots := s.slots.modify (s.slotOf s.txSeq) fun sl =>
      { status := .sent, len := p.length, time := s.now, payload := sl.payload.writeBytes 0 p }
    txSeq := seqAdd s.txSeq 1
    txCrc := crcOf s.params.crcUpdate (dataControl s.rxSeq s.txSeq :: p)
    timerArmed := true
    out := s.out ++ frameEvents s.params (dataControl s.rxSeq s.txSeq :: p)
      ++ if s.timerArmed then [] else [.arm s.params.ackDelay] }

/-- START opens the packet, APPENDs fill it, FINISH sends it: one frame, one slot. -/
theorem execAll_send (hcount : s.slots.length = s.params.window.size) (hok : s.faultCode = 0) (hclosed : s.txOpen = false)
    (hwindow : s.outstanding ≠ s.params.window.size) (p : List Byte) (hp : p.length ≤ s.params.maxPayload) :
    execAll (send p) s = .next (s.afterSend p) := by
  have hinside : s.slotOf s.txSeq < s.slots.length := hcount ▸ s.slotOf_lt _
  have hstart := exec_start_ok s hok (s.startPacket_ok hclosed hwindow)
  rw [send, execAll_cons_next hstart]
  generalize hu : ({ s with
    slots := s.slots.modify (s.slotOf s.txSeq) fun sl => { sl with status := .preparing, len := 0 }
    txCrc := crcUpdate s.params.crcUpdate Config.crcInit (dataControl s.rxSeq s.txSeq)
    out := s.out ++ (s.params.frameByte :: esc s.params (dataControl s.rxSeq s.txSeq)).map .emit } : State) = u
  have hslot : u.slot (u.slotOf u.txSeq) = { s.slot (s.slotOf s.txSeq) with status := .preparing, len := 0 } := by
    subst hu
    exact (State.slot_of_modify_inside rfl hinside).trans (if_pos rfl)
  have hopen : u.txOpen = true := u.txOpen_iff.mpr (congrArg Slot.status hslot)
  have hlen : (u.slot (u.slotOf u.txSeq)).len = 0 := congrArg Slot.len hslot
  have happends := execAll_appends (s := u) (by subst hu; exact hok) hopen p
    (by rw [hlen, Nat.zero_add]; subst hu; exact hp)
  rw [execAll_append_next happends, execAll_cons_next (exec_finish_ok _ (by subst hu; exact hok)
    (State.finishPacket_ok _ (State.appendBytes_txOpen hopen p)))]
  subst hu
  simp [execAll, State.afterSend, State.appendBytes, State.slotOf, modify_twice, frameEvents, frameWire, withTrailer, crcOf]

theorem State.afterSend_slot (hcount : s.slots.length = s.params.window.size) (p : List Byte) :
    (s.afterSend p).slot (s.slotOf s.txSeq) =
      { status := .sent, len := p.length, time := s.now
        payload := (s.slot (s.slotOf s.txSeq)).payload.writeBytes 0 p } := by
  have hinside : s.slotOf s.txSeq < s.slots.length := hcount ▸ s.slotOf_lt _
  exact (State.slot_of_modify_inside rfl hinside).trans (if_pos rfl)

/-- Settles O27: SEND is one frame and one changed slot, which holds the payload. -/
theorem sendEmitsWholeFrame : Obligations.SendEmitsWholeFrame := by
  intro s p hcount hok hclosed hwindow hp
  refine ⟨_, execAll_send hcount hok hclosed hwindow p hp, rfl, rfl, rfl, hok, ?_⟩
  rw [State.afterSend_slot hcount]
  exact ⟨rfl, rfl, rfl, Memory.readRange_writeBytes _ _ _, fun j hj => s.slot_modifySlot_ne _ hj⟩

/-! ### An APPENDS that overflows -/

/-- 60 R322: in the fault state a command list without INIT is not taken. -/
theorem execAll_faulted {is : List Instr} (hstuck : s.faultCode ≠ 0) (his : .init ∉ is) : execAll is s = .next s := by
  induction is with
  | nil => rfl
  | cons i rest ih =>
    obtain ⟨hi, hrest⟩ := not_or.mp (mt List.mem_cons.mpr his)
    rw [execAll_cons_next (exec_faulted s hstuck (Ne.symm hi)), ih hrest]

theorem init_notMem_appends (p : List Byte) : .init ∉ appends p := by
  simp [appends]

/-- Settles O28: the bytes that fit are appended, the next one faults, and the rest is not taken. -/
theorem appendsFaultKeepsPrefix : Obligations.AppendsFaultKeepsPrefix := by
  intro s p _ hok hopen hempty hlong
  have hfit : (p.take s.params.maxPayload).length = s.params.maxPayload := List.length_take_of_le hlong.le
  have hlen := State.appendBytes_len hopen (p.take s.params.maxPayload)
  rw [hempty, hfit, Nat.zero_add] at hlen
  have hsplit : appends p = appends (p.take s.params.maxPayload)
      ++ .append p[s.params.maxPayload] :: appends (p.drop (s.params.maxPayload + 1)) := by
    rw [appends, appends, appends, ← List.map_cons, ← List.drop_eq_getElem_cons hlong, ← List.map_append,
      List.take_append_drop]
  have happends := execAll_appends hok hopen (p.take s.params.maxPayload) (by rw [hempty, hfit, Nat.zero_add])
  have hfault := exec_append_error (s.appendBytes (p.take s.params.maxPayload)) (b := p[s.params.maxPayload]) hok
    (State.appendByte_full _ _ (State.appendBytes_txOpen hopen _) hlen.ge)
  refine ⟨(s.appendBytes (p.take s.params.maxPayload)).takeFault ⟨.txPayloadOverflow, 0⟩, ?_, rfl, rfl, rfl, hlen, ?_⟩
  · rw [hsplit, execAll_append_next happends, execAll_cons_next hfault]
    exact execAll_faulted (FaultName.code_ne_zero .txPayloadOverflow) (init_notMem_appends _)
  · have hpayload := State.appendBytes_payload hopen (p.take s.params.maxPayload)
    rw [hempty] at hpayload
    have hread := Memory.readRange_writeBytes (s.slot (s.slotOf s.txSeq)).payload 0 (p.take s.params.maxPayload)
    rw [← hpayload, hfit] at hread
    exact hread

/-! ### The frame of a retransmission -/

/-- A frame's events tell its body (41 R165, R168). -/
theorem frameEvents_injective (P : Params) : Function.Injective (frameEvents P) := fun xs ys h => by
  have hemit : Function.Injective Event.emit := fun _ _ e => by injection e
  have hwire := hemit.list_map (List.append_cancel_right h)
  have hbody := stuffed_injective P (List.append_cancel_left (List.append_cancel_right hwire))
  exact (List.append_inj' hbody rfl).1

theorem dataControl_inj {a b q : Seq} : dataControl a q = dataControl b q ↔ a = b := by
  have hinj : ∀ a b q : Seq, dataControl a q = dataControl b q ↔ a = b := by decide
  exact hinj a b q

/-- 42 R197, R198: with the same `RX_SEQ`, and only then, two frames of one packet are the same. -/
theorem frameEvents_dataControl_eq_iff (P : Params) {a b q : Seq} {p : List Byte} :
    frameEvents P (dataControl a q :: p) = frameEvents P (dataControl b q :: p) ↔ a = b := by
  simp only [(frameEvents_injective P).eq_iff, List.cons.injEq, and_true, dataControl_inj]

/-- 45 R286, 42 R197: what a TICK does to the oldest overdue packet. -/
theorem exec_tick_late (hok : s.faultCode = 0) {q : Seq} (hq : s.oldestOverdue = some q) :
    exec .tick s = .next
      { s with
        slots := s.slots.modify (s.slotOf q) fun sl => { sl with time := s.now }
        txCrc := crcOf s.params.crcUpdate
          (dataControl s.rxSeq q :: (s.slot (s.slotOf q)).payload.readRange 0 (s.slot (s.slotOf q)).len)
        timerArmed := true
        out := s.out ++ frameEvents s.params
          (dataControl s.rxSeq q :: (s.slot (s.slotOf q)).payload.readRange 0 (s.slot (s.slotOf q)).len)
          ++ [.arm s.params.ackDelay] } := by
  rw [exec_tick s hok, State.checkTimeouts_late hq, State.retransmit_eq]
  rfl

/-- Settles O29: both frames carry the stored payload, so they differ at most in the control byte's `RX_SEQ`. -/
theorem retransmissionByteIdentical : Obligations.RetransmissionByteIdentical := by
  intro s₀ t₀ s p _ hcount hok₀ hclosed hwindow hp hsend hparams hok hover hlen hbytes
  obtain rfl : s₀.afterSend p = t₀ := by
    rw [execAll_send hcount hok₀ hclosed hwindow p hp] at hsend
    cases hsend
    rfl
  rw [State.afterSend_slot hcount] at hlen hbytes
  have hpayload : (s.slot (s.slotOf s₀.txSeq)).payload.readRange 0 (s.slot (s.slotOf s₀.txSeq)).len = p := by
    rw [hlen]
    refine (Memory.readRange_congr fun a ha => ?_).trans (Memory.readRange_writeBytes (s₀.slot (s₀.slotOf s₀.txSeq)).payload 0 p)
    rw [Nat.zero_add]
    exact hbytes a ha
  refine ⟨_, frameEvents s₀.params (dataControl s₀.rxSeq s₀.txSeq :: p), frameEvents s.params (dataControl s.rxSeq s₀.txSeq :: p),
    exec_tick_late hok hover, rfl, ?_, ?_⟩
  · rw [hpayload]
  · rw [hparams]
    exact frameEvents_dataControl_eq_iff s₀.params

/-! ### A late TICK -/

/-- 45 R284: a stored time as old as `ACK_DELAY` asks is timed out. -/
theorem State.timedOut_of_le {stored later : Nat} (h : comparable stored later) (hnow : s.now = sampleOf later)
    (hlate : stored + s.params.ackDelay.toNat + (if s.params.timeoutStrict then 1 else 0) ≤ later) :
    s.timedOut (sampleOf stored) = true := by
  rw [State.timedOut, State.elapsed_sampleOf h hnow]
  split at hlate <;> next hstrict => simp [hstrict]; omega

/-- Settles O39: by (I2) the oldest outstanding packet is SENT, so it is the one the scan finds. -/
theorem lateTickRetransmitsOldest : Obligations.LateTickRetransmitsOldest := by
  intro s stored later hinv hok hout hcmp hnow htime hlate
  have hfirst : s.outstandingSeq 0 = s.ackSeq := seqAdd_zero _
  have hsent := hinv.outstandingSent 0 hout
  rw [hfirst] at hsent
  have hover : s.overdue (s.slotOf (s.outstandingSeq 0)) = true := by
    rw [hfirst, State.overdue, hsent, htime, State.timedOut_of_le hcmp hnow hlate]
    decide
  have hscan := s.oldestOverdue_eq hout hover fun j hj => absurd hj (Nat.not_lt_zero j)
  rw [hfirst] at hscan
  refine ⟨_, exec_tick_late hok hscan, rfl, ?_⟩
  have hinside : s.slotOf s.ackSeq < s.slots.length := s.slot_inside (by simp [hsent])
  rw [State.slot_of_modify_inside rfl hinside, if_pos rfl]

end Sys2Proof.Machine
end

section
/-! PROOFS. What each command leaves unchanged (10 R30, 60 R320): START, APPEND, FINISH, AVAIL and TICK; FEED; and the fault
codes.

The commands fall in two groups. The application's and the timer's never write the receive path. FEED, where it closes no valid
frame, writes nothing but the receive path; closing one is an `AckUpto` followed, for a data frame, by the answer. -/

namespace Sys2Proof.Machine

variable {s t : State}

/-! ### The commands of the application and the timer -/

section Transmit

variable {i : Instr} (h : exec i s = .next t) (hinit : i ≠ .init) (hfeed : ∀ b, i ≠ .feed b)
include h hinit hfeed

/-- The registers and memories these commands may write; every other field is as it was. -/
theorem exec_transmit_eq :
    t = { s with
      txSeq := t.txSeq, txCrc := t.txCrc, timerArmed := t.timerArmed
      faultCode := t.faultCode, faultInfo := t.faultInfo
      slots := t.slots, out := t.out } := by
  rcases exec_cases s h with ⟨hi, -⟩ | ⟨-, -, rfl⟩ | ⟨-, b, hi, -⟩ | ⟨-, -, hb | ⟨r, -, rfl⟩⟩
      | ⟨-, b, -, hb | ⟨r, -, rfl⟩⟩ | ⟨-, -, hb | ⟨r, -, rfl⟩⟩ | ⟨-, -, rfl⟩ | ⟨-, -, rfl⟩
  · exact absurd hi hinit
  · rfl
  · exact absurd hi (hfeed b)
  · rcases s.startPacket_cases with ⟨-, e⟩ | ⟨-, -, e⟩ | ⟨-, -, e⟩ <;> rw [e] at hb <;> cases hb
    rfl
  · rfl
  · rcases s.appendByte_cases b with ⟨-, e⟩ | ⟨-, -, e⟩ | ⟨-, -, e⟩ <;> rw [e] at hb <;> cases hb
    rfl
  · rfl
  · rcases s.finishPacket_cases with ⟨-, e⟩ | ⟨-, e⟩ <;> rw [e] at hb <;> cases hb
    rfl
  · rfl
  · rfl
  · rcases s.checkTimeouts_cases with ⟨-, e⟩ | ⟨-, -, e⟩ | ⟨q, -, -, e⟩ <;> rw [e]
    · rfl
    · rw [State.retransmit_eq]
      rfl

/-- Which commands write the timer flag, `TX_CRC` and the fault registers. -/
theorem exec_transmit_registers :
    (i ≠ .finish → i ≠ .tick → t.timerArmed = s.timerArmed)
    ∧ (i = .finish ∨ i = .avail → t.txCrc = s.txCrc)
    ∧ (i = .avail ∨ i = .tick → t.faultCode = s.faultCode ∧ t.faultInfo = s.faultInfo) := by
  rcases exec_cases s h with ⟨hi, -⟩ | ⟨-, -, rfl⟩ | ⟨-, b, hi, -⟩ | ⟨-, rfl, hb | ⟨r, -, rfl⟩⟩
      | ⟨-, b, rfl, hb | ⟨r, -, rfl⟩⟩ | ⟨-, rfl, hb | ⟨r, -, rfl⟩⟩ | ⟨-, rfl, rfl⟩ | ⟨-, rfl, rfl⟩
  · exact absurd hi hinit
  · exact ⟨fun _ _ => rfl, fun _ => rfl, fun _ => ⟨rfl, rfl⟩⟩
  · exact absurd hi (hfeed b)
  · rcases s.startPacket_cases with ⟨-, e⟩ | ⟨-, -, e⟩ | ⟨-, -, e⟩ <;> rw [e] at hb <;> cases hb
    simp
  · simp
  · rcases s.appendByte_cases b with ⟨-, e⟩ | ⟨-, -, e⟩ | ⟨-, -, e⟩ <;> rw [e] at hb <;> cases hb
    simp
  · simp
  · rcases s.finishPacket_cases with ⟨-, e⟩ | ⟨-, e⟩ <;> rw [e] at hb <;> cases hb
    simp
  · simp
  · simp
  · refine ⟨fun _ htick => absurd rfl htick, by simp, fun _ => ⟨s.checkTimeouts_faultCode, ?_⟩⟩
    rcases s.checkTimeouts_cases with ⟨-, e⟩ | ⟨-, -, e⟩ | ⟨q, -, -, e⟩ <;> rw [e]
    · rfl
    · rw [State.retransmit_eq]
      rfl

/-- What these commands do to the slots: START, APPEND and FINISH change the slot of `TX_SEQ`, TICK one slot's time. -/
theorem exec_transmit_slots :
    t.slots = s.slots
    ∨ (i = .start
        ∧ t.slots = s.slots.modify (s.slotOf s.txSeq) fun sl => { sl with status := .preparing, len := 0 })
    ∨ (∃ b, i = .append b ∧ t.slots = s.slots.modify (s.slotOf s.txSeq) fun sl =>
        { sl with len := sl.len + 1, payload := sl.payload.write sl.len b })
    ∨ (i = .finish ∧ t.slots = s.slots.modify (s.slotOf s.txSeq) fun sl => { sl with status := .sent, time := s.now })
    ∨ (i = .tick ∧ ∃ j, t.slots = s.slots.modify j fun sl => { sl with time := s.now }) := by
  rcases exec_cases s h with ⟨hi, -⟩ | ⟨-, -, rfl⟩ | ⟨-, b, hi, -⟩ | ⟨-, hi, hb | ⟨r, -, rfl⟩⟩
      | ⟨-, b, hi, hb | ⟨r, -, rfl⟩⟩ | ⟨-, hi, hb | ⟨r, -, rfl⟩⟩ | ⟨-, -, rfl⟩ | ⟨-, hi, rfl⟩
  · exact absurd hi hinit
  · exact .inl rfl
  · exact absurd hi (hfeed b)
  · rcases s.startPacket_cases with ⟨-, e⟩ | ⟨-, -, e⟩ | ⟨-, -, e⟩ <;> rw [e] at hb <;> cases hb
    exact .inr (.inl ⟨hi, rfl⟩)
  · exact .inl rfl
  · rcases s.appendByte_cases b with ⟨-, e⟩ | ⟨-, -, e⟩ | ⟨-, -, e⟩ <;> rw [e] at hb <;> cases hb
    exact .inr (.inr (.inl ⟨b, hi, rfl⟩))
  · exact .inl rfl
  · rcases s.finishPacket_cases with ⟨-, e⟩ | ⟨-, e⟩ <;> rw [e] at hb <;> cases hb
    exact .inr (.inr (.inr (.inl ⟨hi, rfl⟩)))
  · exact .inl rfl
  · exact .inl rfl
  · rcases s.checkTimeouts_cases with ⟨-, e⟩ | ⟨-, -, e⟩ | ⟨q, -, -, e⟩ <;> rw [e]
    · exact .inl rfl
    · exact .inl rfl
    · exact .inr (.inr (.inr (.inr ⟨hi, s.slotOf q, by rw [State.retransmit_eq]; rfl⟩)))

theorem exec_avail_slots (hi : i = .avail) : t.slots = s.slots := by
  rcases exec_transmit_slots h hinit hfeed with e | ⟨hi', -⟩ | ⟨b, hi', -⟩ | ⟨hi', -⟩ | ⟨hi', -⟩
  · exact e
  all_goals cases hi.symm.trans hi'

/-- Of the application's commands, none changes another slot than that of `TX_SEQ`. -/
theorem exec_transmit_other_slot (htick : i ≠ .tick) {j : Nat} (hj : j ≠ s.slotOf s.txSeq) : t.slot j = s.slot j := by
  rcases exec_transmit_slots h hinit hfeed with e | ⟨-, e⟩ | ⟨b, -, e⟩ | ⟨-, e⟩ | ⟨hi, -⟩
  · exact State.slot_eq_of_slots e j
  · exact (State.slot_of_modify e j).resolve_right fun hc => hj hc.1
  · exact (State.slot_of_modify e j).resolve_right fun hc => hj hc.1
  · exact (State.slot_of_modify e j).resolve_right fun hc => hj hc.1
  · exact absurd hi htick

theorem exec_tick_slot (hi : i = .tick) (j : Nat) :
    (t.slot j).status = (s.slot j).status ∧ (t.slot j).len = (s.slot j).len := by
  rcases exec_transmit_slots h hinit hfeed with e | ⟨hi', -⟩ | ⟨b, hi', -⟩ | ⟨hi', -⟩ | ⟨-, k, e⟩
  · rw [State.slot_eq_of_slots e j]
    exact ⟨rfl, rfl⟩
  · cases hi.symm.trans hi'
  · cases hi.symm.trans hi'
  · cases hi.symm.trans hi'
  · rcases State.slot_of_modify e j with e | ⟨-, e⟩ <;> rw [e] <;> exact ⟨rfl, rfl⟩

/-- 10 R45: APPEND stores one byte, at index `SLOT_LEN` of the slot of `TX_SEQ`, and nothing else stores to a slot. -/
theorem exec_transmit_payload {j a : Nat} (hother : ¬ ((∃ b, i = .append b) ∧ j = s.slotOf s.txSeq ∧ a = (s.slot j).len)) :
    (t.slot j).payload.read a = (s.slot j).payload.read a := by
  rcases exec_transmit_slots h hinit hfeed with e | ⟨-, e⟩ | ⟨b, hi, e⟩ | ⟨-, e⟩ | ⟨-, k, e⟩
  · rw [State.slot_eq_of_slots e j]
  · rcases State.slot_of_modify e j with e | ⟨-, e⟩ <;> rw [e]
  · rcases State.slot_of_modify e j with e | ⟨hj, e⟩ <;> rw [e]
    exact Memory.read_write_other _ _ fun ha => hother ⟨⟨b, hi⟩, hj, ha⟩
  · rcases State.slot_of_modify e j with e | ⟨-, e⟩ <;> rw [e]
  · rcases State.slot_of_modify e j with e | ⟨-, e⟩ <;> rw [e]

end Transmit

/-- Settles O42: the fields these commands may write, and what they do to the slots. -/
theorem transmitCommandsFrame : Obligations.TransmitCommandsFrame := by
  intro i s t hi h
  have hinit : i ≠ .init := by rintro rfl; simp at hi
  have hfeed : ∀ b, i ≠ .feed b := by rintro b rfl; simp at hi
  have heq := exec_transmit_eq h hinit hfeed
  obtain ⟨htimer, htxCrc, hfault⟩ := exec_transmit_registers h hinit hfeed
  refine ⟨(congrArg State.rxSeq heq :), (congrArg State.ackSeq heq :), (congrArg State.frameState heq :),
    (congrArg State.rxCrc heq :), (congrArg State.rxLen heq :), (congrArg State.rxOvf heq :),
    fun a => congrArg (fun u => u.rxBuf.read a) heq,
    (congrArg State.params heq :), (congrArg State.port heq :), (congrArg State.now heq :), fun hne => ?_, htimer, htxCrc, hfault,
    exec_avail_slots h hinit hfeed, fun htick j hj => exec_transmit_other_slot h hinit hfeed htick hj,
    fun j htick => exec_tick_slot h hinit hfeed htick j, fun j a hother => exec_transmit_payload h hinit hfeed hother⟩
  rcases exec_txSeq h with htx | ⟨hfin, -⟩ | ⟨hini, -⟩
  · exact htx
  · exact absurd hfin hne
  · exact absurd hini hinit

/-! ### FEED -/

/-- Outside a frame, on a closing delimiter and on an escape byte, FEED stores no byte (43 R230). -/
def State.storesNoByte (s : State) (b : Byte) : Prop :=
  s.frameState = .outsideFrame ∨ (s.frameState = .inFrame ∧ (b = s.params.frameByte ∨ b = s.params.escapeByte))

/-- What a FEED that closes no valid frame does: it writes the receive path only, and leaves no frame. -/
structure State.QuietFeed (s : State) (b : Byte) (t : State) : Prop where
  eq : t = { s with
    frameState := t.frameState, rxCrc := t.rxCrc, rxLen := t.rxLen, rxOvf := t.rxOvf, rxBuf := t.rxBuf }
  inside : t.frameState = .outsideFrame → s.frameState = .outsideFrame
  buffer : t.rxBuf = s.rxBuf ∨ (¬ s.storesNoByte b ∧ ∃ v, t.rxBuf = s.rxBuf.write s.rxLen v)

/-- The state after the ACK-only frame that answers a data frame (44 R256, R257, R260), the next frame opened: `rx` is the
`RX_SEQ` it carries, `delivers` the events before it. -/
def State.answered (s : State) (rx : Seq) (delivers : List Event) : State :=
  { s with
    frameState := .inFrame, rxCrc := Config.crcInit, rxLen := 0, rxOvf := false
    rxSeq := rx
    txCrc := crcOf s.params.crcUpdate [ackControl rx s.txSeq]
    out := s.out ++ delivers ++ frameEvents s.params [ackControl rx s.txSeq] }

/-- A data frame in order: one `Deliver`, and `RX_SEQ` advances; out of order: neither (44 R256, R257). -/
def State.answersWith (s : State) (rx : Seq) (delivers : List Event) : Prop :=
  (rx = s.rxSeq ∧ delivers = []) ∨ (rx = seqAdd s.rxSeq 1 ∧ ∃ p, delivers = [.deliver p])

theorem State.ackUpto_ackSeq_self (s : State) : s.ackUpto s.ackSeq = s := s.ackUpto_noop (.inl (seqDist_self _))

/-- Where the piggybacked ACK is not processed, a duplicate stands for it. -/
theorem State.exists_afterPiggyback_eq (s : State) (ctrl : Byte) : ∃ p, s.afterPiggyback ctrl = s.ackUpto p := by
  rcases s.afterPiggyback_cases ctrl with e | e
  · exact ⟨s.ackSeq, e.trans s.ackUpto_ackSeq_self.symm⟩
  · exact ⟨_, e⟩

theorem State.accepted_eq_answered (s : State) :
    s.accepted = (s.afterPiggyback s.frameControl).answered (seqAdd s.rxSeq 1) [.deliver s.framePayload] := by
  rw [State.accepted, State.answered, s.afterPiggyback_eq]

theorem State.reacknowledged_eq_answered (s : State) :
    s.reacknowledged = (s.afterPiggyback s.frameControl).answered s.rxSeq [] := by
  rw [State.reacknowledged, State.answered, s.afterPiggyback_eq, List.append_nil]

/-- The three kinds of FEED that go on. -/
theorem State.feedByte_kinds {b : Byte} (h : s.feedByte b = .ok t) :
    (¬ s.closesValidFrame b ∧ s.QuietFeed b t)
    ∨ (s.closesValidFrame b ∧ isData s.frameControl = false ∧ ∃ p, t = (s.ackUpto p).startFrame)
    ∨ (s.closesValidFrame b ∧ isData s.frameControl = true
        ∧ ∃ p rx delivers, s.answersWith rx delivers ∧ t = (s.ackUpto p).answered rx delivers) := by
  rcases s.feedByte_ok h with ⟨hs, -, rfl⟩ | ⟨hs, -, -, rfl⟩ | ⟨-, -, hv, rfl⟩ | ⟨hv, hd, -, rfl⟩ | ⟨hv, hd, -, rfl⟩
      | ⟨hv, hd, rfl⟩ | ⟨-, hb, -, rfl⟩ | ⟨v, hstores, ⟨-, rfl⟩ | ⟨-, -, rfl⟩⟩
  · exact .inl ⟨fun hv => by simp [hv.1] at hs, rfl, fun hc => by simp at hc, .inl rfl⟩
  · exact .inl ⟨fun hv => by simp [hv.1] at hs, rfl, id, .inl rfl⟩
  · exact .inl ⟨hv, rfl, fun hc => by simp at hc, .inl rfl⟩
  · obtain ⟨p, hp⟩ := s.exists_afterPiggyback_eq s.frameControl
    exact .inr (.inr ⟨hv, hd, p, _, _, .inr ⟨rfl, _, rfl⟩, by rw [s.accepted_eq_answered, hp]⟩)
  · obtain ⟨p, hp⟩ := s.exists_afterPiggyback_eq s.frameControl
    exact .inr (.inr ⟨hv, hd, p, _, _, .inl ⟨rfl, rfl⟩, by rw [s.reacknowledged_eq_answered, hp]⟩)
  · exact .inr (.inl ⟨hv, hd, _, rfl⟩)
  · exact .inl ⟨fun hv => hb hv.2.1, rfl, fun hc => by simp at hc, .inl rfl⟩
  all_goals
    have hstore : ¬ s.storesNoByte b := by
      rcases hstores with ⟨hs, hb, he, -⟩ | ⟨hs, -⟩ <;> simp_all [State.storesNoByte]
    have hvalid : ¬ s.closesValidFrame b := fun hv => hstore (.inr ⟨hv.1, .inl hv.2.1⟩)
  · exact .inl ⟨hvalid, rfl, fun hc => by simp at hc, .inr ⟨hstore, v, rfl⟩⟩
  · exact .inl ⟨hvalid, rfl, fun hc => by simp at hc, .inl rfl⟩

/-- The kinds of FEED as a command: not taken, a fault, or one of the three that go on. -/
theorem exec_feed_kinds {b : Byte} (h : exec (.feed b) s = .next t) :
    (s.faultCode ≠ 0 ∧ t = s) ∨ (s.faultCode = 0 ∧ ¬ s.closesValidFrame b ∧ ∃ r, t = s.takeFault r)
    ∨ (s.faultCode = 0 ∧ ¬ s.closesValidFrame b ∧ s.QuietFeed b t)
    ∨ (s.faultCode = 0 ∧ s.closesValidFrame b ∧ isData s.frameControl = false ∧ ∃ p, t = (s.ackUpto p).startFrame)
    ∨ (s.faultCode = 0 ∧ s.closesValidFrame b ∧ isData s.frameControl = true
        ∧ ∃ p rx delivers, s.answersWith rx delivers ∧ t = (s.ackUpto p).answered rx delivers) := by
  rcases State.perform_cases s (body := fun s => s.feedByte b) h with ⟨hstuck, e⟩ | ⟨hok, hb⟩ | ⟨r, hok, hb, e⟩
  · exact .inl ⟨hstuck, e⟩
  · rcases State.feedByte_kinds hb with hq | ha | hd
    · exact .inr (.inr (.inl ⟨hok, hq⟩))
    · exact .inr (.inr (.inr (.inl ⟨hok, ha⟩)))
    · exact .inr (.inr (.inr (.inr ⟨hok, hd⟩)))
  · refine .inr (.inl ⟨hok, fun hv => ?_, r, e⟩)
    obtain ⟨hs, rfl, -, -, -⟩ := id hv
    have hgoes := State.feedByte_closes hs
    rw [hv.closeFrame_eq, hb] at hgoes
    cases hgoes

/-! ### `AckUpto` and one slot -/

theorem State.ackUpto_length (s : State) (p : Seq) : (s.ackUpto p).slots.length = s.slots.length := by
  rcases s.ackUpto_cases p with e | ⟨h₀, h₁, -⟩
  · rw [e]
  · exact State.ackUpto_advance_length h₀ h₁

/-- 45 R281: an ACK changes no more of a slot than its status, and that to NONE. -/
theorem State.ackUpto_slot (s : State) (p : Seq) (j : Nat) :
    (s.ackUpto p).slot j = s.slot j ∨ (s.ackUpto p).slot j = { s.slot j with status := .none } := by
  rcases s.ackUpto_cases p with e | ⟨h₀, h₁, -⟩
  · exact .inl (by rw [e])
  · by_cases hj : j < s.slots.length
    · rw [State.ackUpto_advance_slot h₀ h₁ hj]
      split
      · exact .inr rfl
      · exact .inl rfl
    · exact .inl (by simp [State.slot, s.ackUpto_length, hj])

@[simp] theorem State.ackUpto_port (s : State) (p : Seq) : (s.ackUpto p).port = s.port := by
  rw [s.ackUpto_eq p]

@[simp] theorem State.ackUpto_rxSeq (s : State) (p : Seq) : (s.ackUpto p).rxSeq = s.rxSeq := by
  rw [s.ackUpto_eq p]

@[simp] theorem State.ackUpto_rxBuf (s : State) (p : Seq) : (s.ackUpto p).rxBuf = s.rxBuf := by
  rw [s.ackUpto_eq p]

@[simp] theorem State.ackUpto_txCrc (s : State) (p : Seq) : (s.ackUpto p).txCrc = s.txCrc := by
  rw [s.ackUpto_eq p]

/-! ### FEED's frame, aspect by aspect -/

section Feed

variable {b : Byte} (h : exec (.feed b) s = .next t)
include h

theorem exec_feed_keeps : t.txSeq = s.txSeq ∧ t.params = s.params ∧ t.port = s.port ∧ t.now = s.now := by
  rcases exec_feed_kinds h with ⟨-, rfl⟩ | ⟨-, -, r, rfl⟩ | ⟨-, -, hq⟩ | ⟨-, -, -, p, rfl⟩ | ⟨-, -, -, p, rx, d, -, rfl⟩
  · exact ⟨rfl, rfl, rfl, rfl⟩
  · exact ⟨rfl, rfl, rfl, rfl⟩
  · exact ⟨(congrArg State.txSeq hq.eq :), (congrArg State.params hq.eq :), (congrArg State.port hq.eq :),
      (congrArg State.now hq.eq :)⟩
  · exact ⟨s.ackUpto_txSeq p, s.ackUpto_params p, s.ackUpto_port p, s.ackUpto_now p⟩
  · exact ⟨s.ackUpto_txSeq p, s.ackUpto_params p, s.ackUpto_port p, s.ackUpto_now p⟩

/-- FEED's slots are those of an `AckUpto`, where it closes a valid frame. -/
theorem exec_feed_slots : t.slots = s.slots ∨ ∃ p, t.slots = (s.ackUpto p).slots := by
  rcases exec_feed_kinds h with ⟨-, rfl⟩ | ⟨-, -, r, rfl⟩ | ⟨-, -, hq⟩ | ⟨-, -, -, p, rfl⟩ | ⟨-, -, -, p, rx, d, -, rfl⟩
  · exact .inl rfl
  · exact .inl rfl
  · exact .inl (congrArg State.slots hq.eq :)
  · exact .inr ⟨p, rfl⟩
  · exact .inr ⟨p, rfl⟩

theorem exec_feed_length : t.slots.length = s.slots.length := by
  rcases exec_feed_slots h with e | ⟨p, e⟩ <;> rw [e]
  exact s.ackUpto_length p

theorem exec_feed_slot (j : Nat) : t.slot j = s.slot j ∨ t.slot j = { s.slot j with status := .none } := by
  rcases exec_feed_slots h with e | ⟨p, e⟩
  · exact .inl (State.slot_eq_of_slots e j)
  · rw [State.slot_eq_of_slots e j]
    exact s.ackUpto_slot p j

theorem exec_feed_rxBuf : t.rxBuf = s.rxBuf ∨ (¬ s.storesNoByte b ∧ ∃ v, t.rxBuf = s.rxBuf.write s.rxLen v) := by
  rcases exec_feed_kinds h with ⟨-, rfl⟩ | ⟨-, -, r, rfl⟩ | ⟨-, -, hq⟩ | ⟨-, -, -, p, rfl⟩ | ⟨-, -, -, p, rx, d, -, rfl⟩
  · exact .inl rfl
  · exact .inl rfl
  · exact hq.buffer
  · exact .inl (s.ackUpto_rxBuf p)
  · exact .inl (s.ackUpto_rxBuf p)

/-- A FEED that closes no valid frame leaves the transmit side and the output alone. -/
theorem exec_feed_quiet (hv : ¬ s.closesValidFrame b) :
    t.rxSeq = s.rxSeq ∧ t.ackSeq = s.ackSeq ∧ t.txCrc = s.txCrc ∧ t.timerArmed = s.timerArmed
      ∧ t.slots = s.slots ∧ t.out = s.out := by
  rcases exec_feed_kinds h with ⟨-, rfl⟩ | ⟨-, -, r, rfl⟩ | ⟨-, -, hq⟩ | ⟨-, hv', -⟩ | ⟨-, hv', -⟩
  · exact ⟨rfl, rfl, rfl, rfl, rfl, rfl⟩
  · exact ⟨rfl, rfl, rfl, rfl, rfl, rfl⟩
  · exact ⟨(congrArg State.rxSeq hq.eq :), (congrArg State.ackSeq hq.eq :), (congrArg State.txCrc hq.eq :),
      (congrArg State.timerArmed hq.eq :), (congrArg State.slots hq.eq :), (congrArg State.out hq.eq :)⟩
  · exact absurd hv' hv
  · exact absurd hv' hv

end Feed

/-- Settles O43: FEED's slots are an ACK's, its stores lie at `RX_LEN`, and without a valid frame it is quiet. -/
theorem feedFrame : Obligations.FeedFrame := by
  intro b s t h
  obtain ⟨htx, hparams, hport, hnow⟩ := exec_feed_keeps h
  refine ⟨htx, hparams, hport, hnow, exec_feed_length h, fun j => ?_, fun a ha => ?_, fun hnone a => ?_, exec_feed_quiet h⟩
  · rcases exec_feed_slot h j with e | e <;> rw [e]
    · exact ⟨rfl, rfl, .inl rfl, fun _ => rfl⟩
    · exact ⟨rfl, rfl, .inr rfl, fun _ => rfl⟩
  · rcases exec_feed_rxBuf h with e | ⟨-, v, e⟩ <;> rw [e]
    exact Memory.read_write_other _ v ha
  · rcases exec_feed_rxBuf h with e | ⟨hstores, -⟩
    · rw [e]
    · exact absurd hnone hstores

/-! ### Fault codes -/

/-- Settles O41: the body that raised names its fault and the condition for it. -/
theorem faultCodesAndInfo : Obligations.FaultCodesAndInfo := by
  intro i s t h hok hfault
  rcases exec_cases s h with ⟨-, rfl⟩ | ⟨-, hstuck, -⟩ | ⟨-, b, rfl, hb | ⟨r, hr, rfl⟩⟩ | ⟨-, rfl, hb | ⟨r, hr, rfl⟩⟩
      | ⟨-, b, rfl, hb | ⟨r, hr, rfl⟩⟩ | ⟨-, rfl, hb | ⟨r, hr, rfl⟩⟩ | ⟨-, -, rfl⟩ | ⟨-, -, rfl⟩
  · exact absurd s.initialise_faultCode hfault
  · exact absurd hok hstuck
  · exact absurd ((State.feedByte_faultCode hb).trans hok) hfault
  · rcases s.feedByte_error hr with ⟨hs, hb, hp, rfl⟩ | ⟨-, rfl, -, hcrc, hlen, hp, rfl⟩ | ⟨-, hfull, hp, rfl⟩
    · exact .inl ⟨rfl, hs, hp, b, rfl, hb, rfl⟩
    · exact .inr ⟨rfl, .inr (.inr (.inr (.inr (.inr ⟨rfl, rfl, hp, hlen, hcrc⟩))))⟩
    · exact .inr ⟨rfl, .inr (.inr (.inr (.inr (.inl ⟨rfl, ⟨b, rfl⟩, hp, Nat.le_of_not_lt hfull⟩))))⟩
  · exact absurd ((State.startPacket_faultCode hb).trans hok) hfault
  · rcases s.startPacket_cases with ⟨hopen, e⟩ | ⟨-, hwindow, e⟩ | ⟨-, -, e⟩ <;> rw [e] at hr <;> cases hr
    · exact .inr ⟨rfl, .inr (.inl ⟨rfl, rfl, hopen⟩)⟩
    · exact .inr ⟨rfl, .inl ⟨rfl, rfl, hwindow⟩⟩
  · exact absurd ((State.appendByte_faultCode hb).trans hok) hfault
  · rcases s.appendByte_cases b with ⟨hclosed, e⟩ | ⟨-, hfull, e⟩ | ⟨-, -, e⟩ <;> rw [e] at hr <;> cases hr
    · exact .inr ⟨rfl, .inr (.inr (.inl ⟨rfl, .inl ⟨b, rfl⟩, hclosed⟩))⟩
    · exact .inr ⟨rfl, .inr (.inr (.inr (.inl ⟨rfl, ⟨b, rfl⟩, hfull⟩)))⟩
  · exact absurd ((State.finishPacket_faultCode hb).trans hok) hfault
  · rcases s.finishPacket_cases with ⟨hclosed, e⟩ | ⟨-, e⟩ <;> rw [e] at hr <;> cases hr
    exact .inr ⟨rfl, .inr (.inr (.inl ⟨rfl, .inr rfl, hclosed⟩))⟩
  · exact absurd hok hfault
  · exact absurd (s.checkTimeouts_faultCode.trans hok) hfault

end Sys2Proof.Machine
end

section
/-! PROOFS. What a command emits, and the registers that follow the events (10 R39, 44 R261, R262, 45 R293).

A command's events come by kind, in one order: those of an ACK it processes, a `Deliver`, what it puts on the link or answers, the
`Arm` that ends it (`State.Emits`). Each rule about events reads off which kinds a command may have, and what they move. -/

namespace Sys2Proof.Machine

variable {s t : State}

/-! ### Kinds of events -/

/-- An event that neither delivers nor touches the timer: a byte or a `Flush` for the link, or AVAIL's answer. -/
def Event.isPlain : Event → Bool
  | .emit _ | .flush | .avail _ => true
  | .deliver _ | .arm _ | .cancel => false

/-- An event of the timer. -/
def Event.isTimer (e : Event) : Bool := e.isArm || e.isCancel

theorem countP_isDeliver_of_plain {es : List Event} (h : ∀ e ∈ es, e.isPlain = true) : es.countP Event.isDeliver = 0 := by
  refine List.countP_eq_zero.mpr fun e he => ?_
  have hplain := h e he
  cases e <;> simp_all [Event.isPlain, Event.isDeliver]

theorem not_isTimer_of_plain {es : List Event} (h : ∀ e ∈ es, e.isPlain = true) : ∀ e ∈ es, e.isTimer = false := by
  intro e he
  have hplain := h e he
  cases e <;> simp_all [Event.isPlain, Event.isTimer, Event.isArm, Event.isCancel]

theorem countP_isArm_of_not_timer {es : List Event} (h : ∀ e ∈ es, e.isTimer = false) : es.countP Event.isArm = 0 := by
  refine List.countP_eq_zero.mpr fun e he => ?_
  have htimer := h e he
  cases e <;> simp_all [Event.isTimer, Event.isArm]

theorem isPlain_of_mem_emits {bytes : List Byte} {e : Event} (h : e ∈ bytes.map Event.emit) : e.isPlain = true := by
  obtain ⟨b, -, rfl⟩ := List.mem_map.mp h
  rfl

theorem isPlain_of_mem_frameEvents {P : Params} {pre : List Byte} {e : Event} (h : e ∈ frameEvents P pre) :
    e.isPlain = true := by
  rcases List.mem_append.mp h with h | h
  · exact isPlain_of_mem_emits h
  · rw [List.mem_singleton.mp h]
    rfl

theorem countP_isFlush_frameEvents (P : Params) (pre : List Byte) : (frameEvents P pre).countP Event.isFlush = 1 := by
  have hbytes : ((frameWire P (withTrailer P.crcUpdate pre)).map Event.emit).countP Event.isFlush = 0 := by
    simp [List.countP_eq_zero, Event.isFlush]
  rw [frameEvents, List.countP_append, hbytes]
  rfl

theorem armedAfter_append (before : Bool) (xs ys : List Event) :
    armedAfter before (xs ++ ys) = armedAfter (armedAfter before xs) ys := List.foldl_append

theorem armedAfter_of_not_timer {es : List Event} (h : ∀ e ∈ es, e.isTimer = false) (before : Bool) :
    armedAfter before es = before := by
  induction es with
  | nil => rfl
  | cons e rest ih =>
    have he : armedAfter before [e] = before := by
      have htimer := h e List.mem_cons_self
      cases e <;> simp_all [Event.isTimer, Event.isArm, Event.isCancel, armedAfter]
    rw [← List.singleton_append, armedAfter_append, he]
    exact ih fun x hx => h x (List.mem_cons_of_mem _ hx)

/-! ### The events of an ACK -/

/-- The events of `AckUpto(p)` (45 R280): `Cancel` where the timer is armed, then `Arm` where a packet is left. -/
def State.ackEvents (s : State) (p : Seq) : List Event :=
  if seqDist s.ackSeq p = 0 ∨ s.outstanding < seqDist s.ackSeq p then []
  else (if s.timerArmed then [.cancel] else []) ++ if (s.ackUpto p).anySent then [.arm (s.ackUpto p).rearmDelay] else []

theorem State.ackUpto_out (s : State) (p : Seq) : (s.ackUpto p).out = s.out ++ s.ackEvents p := by
  by_cases h : seqDist s.ackSeq p = 0 ∨ s.outstanding < seqDist s.ackSeq p
  · rw [s.ackUpto_noop h, State.ackEvents, if_pos h, List.append_nil]
  · obtain ⟨h₀, h₁⟩ := not_or.mp h
    rw [State.ackUpto_advance_out h₀ (Nat.le_of_not_lt h₁), State.ackEvents, if_neg h, List.append_assoc]

theorem State.ackUpto_timerArmed (s : State) (p : Seq) :
    (s.ackUpto p).timerArmed = armedAfter s.timerArmed (s.ackEvents p) := by
  by_cases h : seqDist s.ackSeq p = 0 ∨ s.outstanding < seqDist s.ackSeq p
  · rw [s.ackUpto_noop h, State.ackEvents, if_pos h]
    rfl
  · obtain ⟨h₀, h₁⟩ := not_or.mp h
    rw [State.ackUpto_advance_timerArmed h₀ (Nat.le_of_not_lt h₁), State.ackEvents, if_neg h]
    cases s.timerArmed <;> cases (s.ackUpto p).anySent <;> rfl

theorem State.rearmDelay_le (s : State) : s.rearmDelay.toNat ≤ s.params.ackDelay.toNat := by
  rw [State.rearmDelay, BitVec.toNat_ofNat]
  exact (Nat.mod_le _ _).trans (Nat.sub_le _ _)

theorem State.mem_ackEvents {p : Seq} {e : Event} (h : e ∈ s.ackEvents p) :
    (e = .cancel ∧ s.timerArmed = true) ∨ ∃ d : Time, e = .arm d ∧ d.toNat ≤ s.params.ackDelay.toNat := by
  rw [State.ackEvents] at h
  split at h
  · cases h
  · rcases List.mem_append.mp h with h | h <;> split at h
    · next harmed => exact .inl ⟨List.mem_singleton.mp h, harmed⟩
    · cases h
    · exact .inr ⟨_, List.mem_singleton.mp h, (s.ackUpto_params p) ▸ (s.ackUpto p).rearmDelay_le⟩
    · cases h

theorem State.countP_isArm_ackEvents (s : State) (p : Seq) : (s.ackEvents p).countP Event.isArm ≤ 1 := by
  rw [State.ackEvents]
  split
  · exact Nat.zero_le 1
  · cases s.timerArmed <;> cases (s.ackUpto p).anySent <;> simp [Event.isArm]

theorem State.countP_ackEvents_eq_zero (p : Seq) {f : Event → Bool} (hcancel : f .cancel = false)
    (harm : ∀ d, f (.arm d) = false) :
    (s.ackEvents p).countP f = 0 := by
  refine List.countP_eq_zero.mpr fun e he => ?_
  rcases State.mem_ackEvents he with ⟨rfl, -⟩ | ⟨d, rfl, -⟩
  · simp [hcancel]
  · simp [harm]

/-! ### The events of a command -/

/-- A command's events by kind, and the registers that follow them. -/
structure State.Emits (s : State) (i : Instr) (t : State) (acks delivers plain arms : List Event) : Prop where
  out : t.out = s.out ++ (acks ++ delivers ++ plain ++ arms)
  acksFrom : acks = [] ∨ ((∃ b, i = .feed b) ∧ ∃ p, acks = s.ackEvents p)
  deliversFrom : (t.rxSeq = s.rxSeq ∧ delivers = [])
    ∨ ((∃ b, i = .feed b) ∧ t.rxSeq = seqAdd s.rxSeq 1 ∧ ∃ p, delivers = [.deliver p])
  plainOnly : ∀ e ∈ plain, e.isPlain = true
  armsFrom : arms = [] ∨ (arms = [.arm s.params.ackDelay]
    ∧ ((i = .finish ∧ s.timerArmed = false) ∨ (i = .tick ∧ s.anySent = true)))
  timer : t.timerArmed = armedAfter s.timerArmed (acks ++ arms)

/-- A command that emits plain events only and moves none of the registers that follow events. -/
theorem State.emits_plain {i : Instr} {plain : List Event} (hout : t.out = s.out ++ plain) (hrx : t.rxSeq = s.rxSeq)
    (htimer : t.timerArmed = s.timerArmed) (hplain : ∀ e ∈ plain, e.isPlain = true) : s.Emits i t [] [] plain [] where
  out := by rw [hout, List.append_nil, List.nil_append, List.nil_append]
  acksFrom := .inl rfl
  deliversFrom := .inl ⟨hrx, rfl⟩
  plainOnly := hplain
  armsFrom := .inl rfl
  timer := htimer

theorem State.emits_nothing {i : Instr} (hout : t.out = s.out) (hrx : t.rxSeq = s.rxSeq)
    (htimer : t.timerArmed = s.timerArmed) : s.Emits i t [] [] [] [] :=
  State.emits_plain (hout.trans (List.append_nil _).symm) hrx htimer fun _ h => nomatch h

theorem exec_feed_emits {b : Byte} (h : exec (.feed b) s = .next t) :
    ∃ acks delivers plain, s.Emits (.feed b) t acks delivers plain [] := by
  rcases exec_feed_kinds h with ⟨-, rfl⟩ | ⟨-, -, r, rfl⟩ | ⟨-, hv, -⟩ | ⟨-, -, -, p, rfl⟩ | ⟨-, -, -, p, rx, d, hd, rfl⟩
  · exact ⟨_, _, _, State.emits_nothing rfl rfl rfl⟩
  · exact ⟨_, _, _, State.emits_nothing rfl rfl rfl⟩
  · obtain ⟨hrx, -, -, htimer, -, hout⟩ := exec_feed_quiet h hv
    exact ⟨_, _, _, State.emits_nothing hout hrx htimer⟩
  · refine ⟨s.ackEvents p, [], [], ?_, .inr ⟨⟨b, rfl⟩, p, rfl⟩, .inl ⟨s.ackUpto_rxSeq p, rfl⟩, nofun, .inl rfl, ?_⟩
    · simpa using s.ackUpto_out p
    · simpa using s.ackUpto_timerArmed p
  · refine ⟨s.ackEvents p, d, frameEvents s.params [ackControl rx s.txSeq], ?_, .inr ⟨⟨b, rfl⟩, p, rfl⟩, ?_,
      fun e he => isPlain_of_mem_frameEvents he, .inl rfl, ?_⟩
    · simp [State.answered, s.ackUpto_out p]
    · exact hd.imp_right fun hin => ⟨⟨b, rfl⟩, hin⟩
    · rw [List.append_nil]
      exact s.ackUpto_timerArmed p

theorem State.finishPacket_emits (h : s.finishPacket = .ok t) :
    ∃ plain arms, s.Emits .finish t [] [] plain arms := by
  rcases s.finishPacket_cases with ⟨-, e⟩ | ⟨-, e⟩ <;> rw [e] at h <;> cases h
  refine ⟨(esc s.params (crcLow s.txCrc) ++ esc s.params (crcHigh s.txCrc) ++ [s.params.frameByte]).map .emit ++ [.flush],
    if s.timerArmed then [] else [.arm s.params.ackDelay], ?_, .inl rfl, .inl ⟨rfl, rfl⟩, fun e he => ?_, ?_, ?_⟩
  · simp only [List.append_assoc, List.nil_append]
  · rcases List.mem_append.mp he with he | he
    · exact isPlain_of_mem_emits he
    · rw [List.mem_singleton.mp he]
      rfl
  · cases s.timerArmed <;> simp
  · cases s.timerArmed <;> rfl

theorem State.checkTimeouts_emits (s : State) : ∃ plain arms, s.Emits .tick s.checkTimeouts [] [] plain arms := by
  rcases s.checkTimeouts_cases with ⟨-, e⟩ | ⟨hany, -, e⟩ | ⟨q, hany, -, e⟩ <;> rw [e]
  · exact ⟨_, _, State.emits_nothing rfl rfl rfl⟩
  · exact ⟨[], _, rfl, .inl rfl, .inl ⟨rfl, rfl⟩, nofun, .inr ⟨rfl, .inr ⟨rfl, hany⟩⟩, rfl⟩
  · rw [State.retransmit_eq]
    exact ⟨_, _, List.append_assoc _ _ _, .inl rfl, .inl ⟨rfl, rfl⟩, fun e he => isPlain_of_mem_frameEvents he,
      .inr ⟨rfl, .inr ⟨rfl, hany⟩⟩, rfl⟩

theorem exec_emits {i : Instr} (h : exec i s = .next t) (hi : i ≠ .init) :
    ∃ acks delivers plain arms, s.Emits i t acks delivers plain arms := by
  rcases exec_cases s h with ⟨hinit, -⟩ | ⟨-, -, rfl⟩ | ⟨-, b, rfl, -⟩ | ⟨-, rfl, hb | ⟨r, -, rfl⟩⟩
      | ⟨-, b, rfl, hb | ⟨r, -, rfl⟩⟩ | ⟨-, rfl, hb | ⟨r, -, rfl⟩⟩ | ⟨-, rfl, rfl⟩ | ⟨-, rfl, rfl⟩
  · exact absurd hinit hi
  · exact ⟨_, _, _, _, State.emits_nothing rfl rfl rfl⟩
  · obtain ⟨acks, delivers, plain, he⟩ := exec_feed_emits h
    exact ⟨acks, delivers, plain, [], he⟩
  · rcases s.startPacket_cases with ⟨-, e⟩ | ⟨-, -, e⟩ | ⟨-, -, e⟩ <;> rw [e] at hb <;> cases hb
    exact ⟨_, _, _, _, State.emits_plain rfl rfl rfl fun e he => isPlain_of_mem_emits he⟩
  · exact ⟨_, _, _, _, State.emits_nothing rfl rfl rfl⟩
  · rcases s.appendByte_cases b with ⟨-, e⟩ | ⟨-, -, e⟩ | ⟨-, -, e⟩ <;> rw [e] at hb <;> cases hb
    exact ⟨_, _, _, _, State.emits_plain rfl rfl rfl fun e he => isPlain_of_mem_emits he⟩
  · exact ⟨_, _, _, _, State.emits_nothing rfl rfl rfl⟩
  · obtain ⟨plain, arms, he⟩ := State.finishPacket_emits hb
    exact ⟨[], [], plain, arms, he⟩
  · exact ⟨_, _, _, _, State.emits_nothing rfl rfl rfl⟩
  · refine ⟨_, _, _, _, State.emits_plain rfl rfl rfl fun e he => ?_⟩
    rw [List.mem_singleton.mp he]
    rfl
  · obtain ⟨plain, arms, he⟩ := s.checkTimeouts_emits
    exact ⟨[], [], plain, arms, he⟩

section Kinds

variable {i : Instr} {acks delivers plain arms : List Event} (h : s.Emits i t acks delivers plain arms)
include h

theorem State.Emits.countP_isDeliver :
    (acks ++ delivers ++ plain ++ arms).countP Event.isDeliver = delivers.countP Event.isDeliver := by
  have hacks : acks.countP Event.isDeliver = 0 := by
    rcases h.acksFrom with rfl | ⟨-, p, rfl⟩
    · rfl
    · exact State.countP_ackEvents_eq_zero p rfl fun _ => rfl
  have harms : arms.countP Event.isDeliver = 0 := by
    rcases h.armsFrom with rfl | ⟨rfl, -⟩ <;> rfl
  simp only [List.countP_append, hacks, countP_isDeliver_of_plain h.plainOnly, harms, Nat.zero_add, Nat.add_zero]

theorem State.Emits.delivers_not_timer : ∀ e ∈ delivers, e.isTimer = false := by
  rcases h.deliversFrom with ⟨-, rfl⟩ | ⟨-, -, p, rfl⟩ <;> simp [Event.isTimer, Event.isArm, Event.isCancel]

/-- 45 R293: an ACK's `Arm` and the one that ends FINISH or TICK belong to different commands. -/
theorem State.Emits.countP_isArm : (acks ++ delivers ++ plain ++ arms).countP Event.isArm ≤ 1 := by
  have htimer : acks.countP Event.isArm + arms.countP Event.isArm ≤ 1 := by
    rcases h.acksFrom with rfl | ⟨⟨b, rfl⟩, p, rfl⟩
    · rcases h.armsFrom with rfl | ⟨rfl, -⟩ <;> simp [Event.isArm]
    · obtain rfl : arms = [] := by simpa using h.armsFrom
      exact s.countP_isArm_ackEvents p
  simpa only [List.countP_append, countP_isArm_of_not_timer h.delivers_not_timer,
    countP_isArm_of_not_timer (not_isTimer_of_plain h.plainOnly), Nat.add_zero] using htimer

/-- A timer event is one of an ACK, or the `Arm` that ends FINISH or TICK. -/
theorem State.Emits.mem_timer {e : Event} (he : e ∈ acks ++ delivers ++ plain ++ arms) (htimer : e.isTimer = true) :
    e ∈ acks ∨ e ∈ arms := by
  rw [List.mem_append, List.mem_append, List.mem_append] at he
  rcases he with ((he | he) | he) | he
  · exact .inl he
  · exact absurd (h.delivers_not_timer e he) (by simp [htimer])
  · exact absurd (not_isTimer_of_plain h.plainOnly e he) (by simp [htimer])
  · exact .inr he

theorem State.Emits.mem_acks {e : Event} (he : e ∈ acks) : (∃ b, i = .feed b)
    ∧ ((e = .cancel ∧ s.timerArmed = true) ∨ ∃ d : Time, e = .arm d ∧ d.toNat ≤ s.params.ackDelay.toNat) := by
  rcases h.acksFrom with rfl | ⟨hfeed, p, rfl⟩
  · cases he
  · exact ⟨hfeed, State.mem_ackEvents he⟩

theorem State.Emits.mem_arms {e : Event} (he : e ∈ arms) : e = .arm s.params.ackDelay
    ∧ ((i = .finish ∧ s.timerArmed = false) ∨ (i = .tick ∧ s.anySent = true)) := by
  rcases h.armsFrom with rfl | ⟨rfl, hplace⟩
  · cases he
  · exact ⟨List.mem_singleton.mp he, hplace⟩

theorem State.Emits.armedAfter_eq : armedAfter s.timerArmed (acks ++ delivers ++ plain ++ arms) = t.timerArmed := by
  rw [armedAfter_append, armedAfter_append, armedAfter_append, armedAfter_of_not_timer (not_isTimer_of_plain h.plainOnly),
    armedAfter_of_not_timer h.delivers_not_timer, ← armedAfter_append, h.timer]

end Kinds

/-! ### Delivery -/

/-- Settles O46: of the kinds of events only the `Deliver` counts, one at most, and `RX_SEQ` advances with it. -/
theorem deliverAdvancesRxSeq : Obligations.DeliverAdvancesRxSeq := by
  intro i s t h hi
  obtain ⟨acks, delivers, plain, arms, he⟩ := exec_emits h hi
  refine ⟨_, he.out, ?_⟩
  rw [he.countP_isDeliver]
  rcases he.deliversFrom with ⟨hrx, rfl⟩ | ⟨-, hrx, p, rfl⟩ <;> rw [hrx]
  · exact ⟨Nat.zero_le 1, (BitVec.add_zero _).symm⟩
  · exact ⟨le_rfl, rfl⟩

/-- Settles O47: the one frame a FEED sends is the answer to a valid data frame; an ACK's events are the timer's. -/
theorem oneAckPerValidDataFrame : Obligations.OneAckPerValidDataFrame := by
  intro b s t h hok
  rcases exec_feed_kinds h with ⟨hstuck, -⟩ | ⟨-, hv, r, rfl⟩ | ⟨-, hv, -⟩ | ⟨-, -, hack, p, rfl⟩
      | ⟨-, hv, hdata, p, rx, d, hd, rfl⟩
  · exact absurd hok hstuck
  · exact ⟨[], (List.append_nil _).symm, fun hc => absurd hc.1 hv, fun _ => ⟨rfl, rfl⟩⟩
  · obtain ⟨-, -, -, -, -, hout⟩ := exec_feed_quiet h hv
    exact ⟨[], hout.trans (List.append_nil _).symm, fun hc => absurd hc.1 hv, fun _ => ⟨rfl, rfl⟩⟩
  · refine ⟨s.ackEvents p, s.ackUpto_out p, fun hc => absurd (hack.symm.trans hc.2) Bool.false_ne_true, fun _ => ⟨?_, ?_⟩⟩
    · exact State.countP_ackEvents_eq_zero p rfl fun _ => rfl
    · exact State.countP_ackEvents_eq_zero p rfl fun _ => rfl
  · refine ⟨s.ackEvents p ++ d ++ frameEvents s.params [ackControl rx s.txSeq], ?_, fun _ => ?_,
      fun hc => absurd ⟨hv, hdata⟩ hc⟩
    · simp [State.answered, s.ackUpto_out p]
    · have hacks : (s.ackEvents p).countP Event.isFlush = 0 := State.countP_ackEvents_eq_zero p rfl fun _ => rfl
      have hdeliver : d.countP Event.isFlush = 0 := by
        rcases hd with ⟨-, rfl⟩ | ⟨-, pl, rfl⟩ <;> rfl
      rw [List.countP_append, List.countP_append, hacks, hdeliver, countP_isFlush_frameEvents]

/-! ### The timer -/

/-- Settles O48: a timer event is an ACK's, or the `Arm` that ends FINISH or TICK; INIT emits nothing. -/
theorem timerEventPlaces : Obligations.TimerEventPlaces := by
  intro i s t h
  by_cases hi : i = .init
  · subst hi
    cases h
    exact ⟨[], (List.append_nil _).symm, Nat.zero_le 1, nofun, nofun⟩
  · obtain ⟨acks, delivers, plain, arms, he⟩ := exec_emits h hi
    refine ⟨_, he.out, he.countP_isArm, fun d hd => ?_, fun hcancel => ?_⟩
    · rcases he.mem_timer hd rfl with hd | hd
      · obtain ⟨hfeed, ⟨hc, -⟩ | ⟨d', hd', hle⟩⟩ := he.mem_acks hd
        · cases hc
        · cases hd'
          exact ⟨hle, .inr (.inr hfeed)⟩
      · obtain ⟨hd', hplace⟩ := he.mem_arms hd
        cases hd'
        exact ⟨le_rfl, hplace.imp (fun hf => ⟨hf.1, hf.2, rfl⟩) fun ht => .inl ⟨ht.1, ht.2, rfl⟩⟩
    · rcases he.mem_timer hcancel rfl with hc | hc
      · obtain ⟨hfeed, ⟨-, harmed⟩ | ⟨d, hd, -⟩⟩ := he.mem_acks hc
        · exact ⟨hfeed, harmed⟩
        · cases hd
      · cases (he.mem_arms hc).1

/-- Settles O49: the events that are not the timer's do not count, and the others move `TIMER_ARMED`. -/
theorem timerArmedFollowsEvents : Obligations.TimerArmedFollowsEvents := by
  intro i s t h hi
  obtain ⟨acks, delivers, plain, arms, he⟩ := exec_emits h hi
  exact ⟨_, he.out, he.armedAfter_eq.symm⟩

/-! ### `RX_SEQ` and `ACK_SEQ` -/

theorem State.ackUpto_ackSeq (s : State) (p : Seq) :
    (s.ackUpto p).ackSeq = s.ackSeq ∨ seqDist s.ackSeq (s.ackUpto p).ackSeq ≤ s.outstanding := by
  rcases s.ackUpto_cases p with e | ⟨h₀, h₁, -⟩
  · exact .inl (by rw [e])
  · exact .inr (by rw [State.ackUpto_advance_ackSeq h₀ h₁]; exact h₁)

/-- 10 R33: `ACK_SEQ` moves only in FEED, forward over outstanding sequences. -/
theorem exec_ackSeq {i : Instr} (h : exec i s = .next t) (hi : i ≠ .init) :
    t.ackSeq = s.ackSeq ∨ ((∃ b, i = .feed b) ∧ seqDist s.ackSeq t.ackSeq ≤ s.outstanding) := by
  by_cases hfeed : ∃ b, i = .feed b
  · obtain ⟨b, rfl⟩ := hfeed
    rcases exec_feed_kinds h with ⟨-, rfl⟩ | ⟨-, -, r, rfl⟩ | ⟨-, hv, -⟩ | ⟨-, -, -, p, rfl⟩ | ⟨-, -, -, p, rx, d, -, rfl⟩
    · exact .inl rfl
    · exact .inl rfl
    · obtain ⟨-, hack, -⟩ := exec_feed_quiet h hv
      exact .inl hack
    · exact (s.ackUpto_ackSeq p).imp_right fun hle => ⟨⟨b, rfl⟩, hle⟩
    · exact (s.ackUpto_ackSeq p).imp_right fun hle => ⟨⟨b, rfl⟩, hle⟩
  · exact .inl (congrArg State.ackSeq (exec_transmit_eq h hi (not_exists.mp hfeed)) :)

/-- Settles O45: `RX_SEQ` moves with a `Deliver`, `ACK_SEQ` with an ACK, and both are FEED's. -/
theorem receiveSequenceWriters : Obligations.ReceiveSequenceWriters := by
  intro i s t h hi
  obtain ⟨acks, delivers, plain, arms, he⟩ := exec_emits h hi
  refine ⟨fun hne => ?_, fun hne => (exec_ackSeq h hi).resolve_left hne⟩
  obtain ⟨hfeed, hrx, -⟩ := he.deliversFrom.resolve_left fun hc => hne hc.1
  exact ⟨hfeed, hrx⟩

/-! ### `TX_CRC`, `FRAME_STATE` and the free window -/

/-- Settles O50: the answer to a valid data frame resets `TX_CRC` to its own CRC; every other FEED keeps it. -/
theorem ackFrameResetsSharedTxCrc : Obligations.AckFrameResetsSharedTxCrc := by
  intro b s t h
  rcases exec_feed_kinds h with ⟨hstuck, rfl⟩ | ⟨-, hv, r, rfl⟩ | ⟨-, hv, -⟩ | ⟨-, -, hack, p, rfl⟩
      | ⟨hok, hv, hdata, p, rx, d, -, rfl⟩
  · exact ⟨fun hc => absurd hc.1 hstuck, fun _ => rfl⟩
  · exact ⟨fun hc => absurd hc.2.1 hv, fun _ => rfl⟩
  · obtain ⟨-, -, htxCrc, -⟩ := exec_feed_quiet h hv
    exact ⟨fun hc => absurd hc.2.1 hv, fun _ => htxCrc⟩
  · exact ⟨fun hc => absurd (hack.symm.trans hc.2.2) Bool.false_ne_true, fun _ => s.ackUpto_txCrc p⟩
  · refine ⟨fun _ => ?_, fun hc => absurd ⟨hok, hv, hdata⟩ hc⟩
    simp [State.answered]

/-- Settles O51: only INIT writes `OUTSIDE_FRAME`, and fault code 1 needs it. -/
theorem outsideFrameOnlyByReset : Obligations.OutsideFrameOnlyByReset := by
  intro i s t h hinside
  refine ⟨fun hout => ?_, fun hok hcode => ?_⟩
  · by_contra hi
    by_cases hfeed : ∃ b, i = .feed b
    · obtain ⟨b, rfl⟩ := hfeed
      rcases exec_feed_kinds h with ⟨-, rfl⟩ | ⟨-, -, r, rfl⟩ | ⟨-, -, hq⟩ | ⟨-, -, -, p, rfl⟩
          | ⟨-, -, -, p, rx, d, -, rfl⟩
      · exact hinside hout
      · exact hinside hout
      · exact hinside (hq.inside hout)
      · cases hout
      · cases hout
    · have hkept : t.frameState = s.frameState :=
        (congrArg State.frameState (exec_transmit_eq h hi (not_exists.mp hfeed)) :)
      exact hinside (hkept ▸ hout)
  · have hfault := faultCodesAndInfo i s t h hok (by rw [hcode]; decide)
    rw [hcode] at hfault
    rcases hfault with ⟨-, houtside, -⟩ | ⟨-, ⟨hc, -⟩ | ⟨hc, -⟩ | ⟨hc, -⟩ | ⟨hc, -⟩ | ⟨hc, -⟩ | ⟨hc, -⟩⟩
    · exact hinside houtside
    all_goals exact absurd hc (by decide)

theorem exec_params {i : Instr} (h : exec i s = .next t) : t.params = s.params := by
  by_cases hi : i = .init
  · subst hi
    cases h
    rfl
  · by_cases hfeed : ∃ b, i = .feed b
    · obtain ⟨b, rfl⟩ := hfeed
      exact (exec_feed_keeps h).2.1
    · exact (congrArg State.params (exec_transmit_eq h hi (not_exists.mp hfeed)) :)

theorem exec_out {i : Instr} (h : exec i s = .next t) : ∃ es, t.out = s.out ++ es := by
  obtain ⟨es, hout, -⟩ := timerEventPlaces i s t h
  exact ⟨es, hout⟩

/-- Settles O52: a command appends to the output and keeps the parameters; a fault and the port touch neither. -/
theorem stepKeepsParamsAndPastEvents : Obligations.StepKeepsParamsAndPastEvents := by
  intro s t h
  rcases step_cases s with ⟨-, e⟩ | ⟨r, rest, i, -, -, e⟩ | ⟨r, rest, d, -, -, e⟩ <;> rw [e] at h
  · cases h
    exact ⟨rfl, [], (List.append_nil _).symm⟩
  · have hparams := exec_params h
    have hout := exec_out h
    exact ⟨hparams, hout⟩
  · rcases rejectWord_cases h with rfl | ⟨f, rfl⟩
    · exact ⟨rfl, [], (List.append_nil _).symm⟩
    · exact ⟨rfl, [], (List.append_nil _).symm⟩

/-- 70 R360: `OUT` rises only in FINISH. -/
theorem exec_outstanding_le {i : Instr} (h : exec i s = .next t) (hfin : i ≠ .finish) : t.outstanding ≤ s.outstanding := by
  by_cases hi : i = .init
  · subst hi
    cases h
    rw [s.initialise_outstanding]
    exact Nat.zero_le _
  · have htx : t.txSeq = s.txSeq := (exec_txSeq h).resolve_right fun hc => hc.elim (hfin ·.1) (hi ·.1)
    rcases exec_ackSeq h hi with hack | ⟨-, hle⟩
    · exact (State.outstanding_congr htx hack).le
    · rw [State.outstanding, htx, seqDist_sub_of_le hle]
      exact Nat.sub_le _ _

/-- Settles O26: with (I1) before and after, AVAIL's answer and `OUT` make up the window. -/
theorem onlyFinishLowersAvail : Obligations.OnlyFinishLowersAvail := by
  intro i s t hinv h hfin
  have hbefore := State.available_add_outstanding hinv.windowBound
  have hafter := State.available_add_outstanding (exec_keeps_inv hinv h).windowBound
  have hout := exec_outstanding_le h hfin
  rw [exec_params h] at hafter
  omega

end Sys2Proof.Machine
end

section
/-! PROOFS. The runs whose clock keeps 70 R356: the stored time of a SENT slot is the sample of a real time that the run drew, so
each comparison is of two real times.

The invariant of a run ties `Clock.stamps` to the slots. A command stamps at most one slot, with its own sample, and a slot that
is SENT after it and not stamped was SENT before with the same time (`exec_times`). -/

namespace Sys2Proof.Machine

variable {s t : State} {c : Clock}

/-! ### The number of slots -/

theorem exec_length {i : Instr} (h : exec i s = .next t) : t.slots.length = s.slots.length := by
  by_cases hi : i = .init
  · subst hi
    cases h
    exact List.length_map _
  · by_cases hfeed : ∃ b, i = .feed b
    · obtain ⟨b, rfl⟩ := hfeed
      exact exec_feed_length h
    · rcases exec_transmit_slots h hi (not_exists.mp hfeed) with e | ⟨-, e⟩ | ⟨b, -, e⟩ | ⟨-, e⟩ | ⟨-, k, e⟩ <;> rw [e]
      all_goals exact List.length_modify _ _ _

/-! ### The stamps of a clock -/

@[simp] theorem Clock.length_afterDraw_stamps (s : State) (c : Clock) (w : CmdWord) (n : Nat) :
    (c.afterDraw s w n).stamps.length = c.stamps.length := by
  cases hd : decode w with
  | error e => rw [c.afterDraw_stamps_illegal s n hd]
  | ok i =>
    cases hs : (s.sampledAt n).stampedSlot i with
    | none => rw [c.afterDraw_stamps_kept s hd hs]
    | some k => rw [c.afterDraw_stamps_set s hd hs, List.length_set]

variable {w : CmdWord} {i : Instr} {n k : Nat}

theorem Clock.stampOf_afterDraw_stamped (hd : decode w = .ok i) (hs : (s.sampledAt n).stampedSlot i = some k)
    (hk : k < c.stamps.length) : (c.afterDraw s w n).stampOf k = n := by
  rw [Clock.stampOf, c.afterDraw_stamps_set s hd hs]
  simp [hk]

theorem Clock.stampOf_afterDraw_other (hd : decode w = .ok i) (hs : (s.sampledAt n).stampedSlot i ≠ some k) :
    (c.afterDraw s w n).stampOf k = c.stampOf k := by
  cases hj : (s.sampledAt n).stampedSlot i with
  | none => rw [Clock.stampOf, c.afterDraw_stamps_kept s hd hj, Clock.stampOf]
  | some j =>
    have hjk : j ≠ k := fun e => hs (hj.trans (congrArg some e))
    rw [Clock.stampOf, c.afterDraw_stamps_set s hd hj, Clock.stampOf]
    simp [hjk]

/-! ### The invariant of a run -/

/-- The stamps are the real times behind the stored times of the SENT slots, and the run drew them. -/
structure Clock.Tracks (c : Clock) (s : State) : Prop where
  length : c.stamps.length = s.slots.length
  sent : ∀ k, (s.slot k).status = .sent → c.stampOf k ∈ c.draws ∧ (s.slot k).time = sampleOf (c.stampOf k)

theorem Clock.tracks_powerOn (P : Params) :
    Clock.Tracks { draws := [], stamps := List.replicate P.window.size 0 } (State.powerOn P) where
  length := by simp [State.powerOn]
  sent k hk := by
    rw [State.powerOn_slot_status] at hk
    cases hk

/-- A word that is no command: the draw is recorded and no slot moves. -/
theorem Clock.Tracks.illegal (h : c.Tracks s) {e : DecodeError} (hd : decode w = .error e) (hslots : t.slots = s.slots) :
    (c.afterDraw s w n).Tracks t where
  length := by rw [Clock.length_afterDraw_stamps, h.length, hslots]
  sent k hk := by
    rw [State.slot_eq_of_slots hslots] at hk ⊢
    obtain ⟨hdrawn, htime⟩ := h.sent k hk
    rw [Clock.stampOf, c.afterDraw_stamps_illegal s n hd, ← Clock.stampOf, Clock.afterDraw_draws]
    exact ⟨List.mem_append_left _ hdrawn, htime⟩

/-- The port has no part in which slot is stamped. -/
theorem State.stampedSlot_accepted (s : State) (rest : List Request) (n : Nat) (i : Instr) :
    ({ s with port := rest, now := sampleOf n } : State).stampedSlot i = (s.sampledAt n).stampedSlot i := by
  cases i <;> rfl

/-- A command, run in the state with its own sample. -/
theorem Clock.Tracks.command (h : c.Tracks s) (hd : decode w = .ok i) {rest : List Request}
    (hexec : exec i { s with port := rest, now := sampleOf n } = .next t) : (c.afterDraw s w n).Tracks t where
  length := by rw [Clock.length_afterDraw_stamps, h.length, exec_length hexec]
  sent k hk := by
    have hinside : k < c.stamps.length := by
      rw [h.length, ← exec_length hexec]
      exact t.slot_inside (by simp [hk])
    rw [Clock.afterDraw_draws]
    have htimes := exec_times _ hexec k hk
    rw [s.stampedSlot_accepted] at htimes
    rcases htimes with ⟨hstamped, htime⟩ | ⟨hother, hsent, htime⟩
    · rw [Clock.stampOf_afterDraw_stamped hd hstamped hinside]
      exact ⟨List.mem_append_right _ (List.mem_singleton_self n), htime⟩
    · rw [Clock.stampOf_afterDraw_other hd hother]
      obtain ⟨hdrawn, hold⟩ := h.sent k hsent
      exact ⟨List.mem_append_left _ hdrawn, htime.trans hold⟩

theorem step_offered (s : State) (x : Time) (hd : decode w = .ok i) :
    step { s with port := [⟨w, x⟩] } = exec i { s with port := [], now := x } :=
  step_decoded (r := ⟨w, x⟩) { s with port := [⟨w, x⟩] } rfl hd

theorem step_offered_illegal (s : State) (x : Time) {e : DecodeError} (hd : decode w = .error e) :
    step { s with port := [⟨w, x⟩] } = rejectWord e { s with port := [], now := x } :=
  step_rejected (r := ⟨w, x⟩) { s with port := [⟨w, x⟩] } rfl hd

theorem Run.tracks (h : Run s c) : c.Tracks s := by
  induction h with
  | powerOn P legal => exact Clock.tracks_powerOn P
  | @take s t c before w n admitted taken ih =>
    cases hd : decode w with
    | ok i =>
      rw [step_offered s _ hd] at taken
      exact ih.command hd taken
    | error e =>
      rw [step_offered_illegal s _ hd] at taken
      rcases rejectWord_cases taken with rfl | ⟨r, rfl⟩
      · exact ih.illegal hd rfl
      · exact ih.illegal hd rfl

/-! ### The comparisons of a command -/

/-- A command compares the stored times of SENT slots only. -/
theorem State.comparesTime.sent (h : s.comparesTime i k) : (s.slot k).status = .sent := by
  obtain ⟨-, h⟩ := h
  cases i with
  | tick => exact h.1
  | feed b =>
    obtain ⟨-, -, -, hleft⟩ := h
    exact (s.ackUpto_keepsTimes _ k hleft).1
  | init => exact h.elim
  | start => exact h.elim
  | append b => exact h.elim
  | finish => exact h.elim
  | avail => exact h.elim

/-- Settles O55: the run's invariant, and the premise of R356 on the next draw. -/
theorem runsCompareRealTimes : Obligations.RunsCompareRealTimes := by
  refine fun s c hrun => ⟨hrun.tracks.sent, fun w n i k hadmits hd hcompares => ?_⟩
  obtain ⟨-, htime⟩ := hrun.tracks.sent k hcompares.sent
  rw [htime]
  exact State.elapsed_sampleOf (hadmits.2 i k hd hcompares) rfl

end Sys2Proof.Machine
end

section
/-! PROOFS. A frame from another block (40 R147, 41 R165, 44 R255 to R260): fed byte by byte to a receiver between frames, its
body stands in `RXBUF` with CRC 0 when the closing delimiter comes. -/

namespace Sys2Proof.Machine

variable {s : State}

/-! ### The wire bytes of a frame -/

theorem wireBytes_frameEvents (P : Params) (pre : List Byte) :
    wireBytes (frameEvents P pre) = frameWire P (withTrailer P.crcUpdate pre) := by
  simp [wireBytes, frameEvents, List.filterMap_append, List.filterMap_map]

theorem length_withTrailer (u : CrcUpdate) (pre : List Byte) : (withTrailer u pre).length = pre.length + 2 := by
  simp [withTrailer]

theorem crcOf_withTrailer (u : CrcUpdate) (pre : List Byte) : crcOf u (withTrailer u pre) = 0 :=
  trailerMakesFrameValid u pre

/-! ### A receiver between frames -/

/-- The receiver is between frames: before the first delimiter, or with at most one byte since the last. -/
def State.betweenFrames (s : State) : Prop :=
  s.frameState = .outsideFrame ∨ (s.frameState = .inFrame ∧ s.rxLen < 2 ∧ s.rxOvf = false)

/-- 43 R221, R228: between frames, a delimiter opens a frame and does nothing else. -/
theorem exec_feed_opens (hok : s.faultCode = 0) (h : s.betweenFrames) :
    exec (.feed s.params.frameByte) s = .next s.startFrame := by
  rcases h with hs | ⟨hs, hlen, hovf⟩
  · exact exec_feed_ok s hok (State.feedByte_opens hs rfl)
  · exact exec_feed_closes hok hs (s.closeFrame_ignores hlen hovf)

/-- The state at the closing delimiter of a frame with de-escaped body `body`. -/
def State.receivedFrame (s : State) (body : List Byte) : State := s.startFrame.receiveBytes body

/-- 41 R165: a whole frame that fits comes down to its closing delimiter, fed with the body in `RXBUF`. -/
theorem execAll_feeds_frameWire (hP : s.params.escapeLegal) (hok : s.faultCode = 0) (hbetween : s.betweenFrames)
    (body : List Byte) (hroom : body.length ≤ s.params.rxBufSize) {t : State}
    (hclose : exec (.feed s.params.frameByte) (s.receivedFrame body) = .next t) :
    execAll (feeds (frameWire s.params body)) s = .next t := by
  have hbody : execAll (feeds (body.flatMap (esc s.params))) s.startFrame = .next (s.receivedFrame body) :=
    execAll_feeds_stuffed (s := s.startFrame) hP hok rfl body (by simpa using hroom)
  rw [frameWire, List.append_assoc, List.singleton_append, feeds, List.map_cons,
    execAll_cons_next (exec_feed_opens hok hbetween), ← feeds, feeds_append, execAll_append_next hbody, feeds, List.map_singleton,
    execAll_cons_next hclose]
  rfl

theorem State.receivedFrame_closesValidFrame (pre : List Byte) (hpre : pre ≠ []) :
    (s.receivedFrame (withTrailer s.params.crcUpdate pre)).closesValidFrame s.params.frameByte := by
  have hlen : 0 < pre.length := List.length_pos_iff.mpr hpre
  refine ⟨rfl, rfl, ?_, rfl, crcOf_withTrailer _ _⟩
  change 3 ≤ 0 + (withTrailer s.params.crcUpdate pre).length
  rw [length_withTrailer]
  omega

/-! ### What the receiver reads from the buffer -/

theorem Memory.readRange_append (m : Memory) (lo j k : Nat) :
    m.readRange lo (j + k) = m.readRange lo j ++ m.readRange (lo + j) k := by
  simp [Memory.readRange, List.range_add, Nat.add_assoc]

theorem State.receivedFrame_bytes (s : State) (c : Byte) (p : List Byte) :
    (s.receivedFrame (withTrailer s.params.crcUpdate (c :: p))).rxBuf.read 0 = c
      ∧ (s.receivedFrame (withTrailer s.params.crcUpdate (c :: p))).framePayload = p := by
  have hread : (s.receivedFrame (withTrailer s.params.crcUpdate (c :: p))).rxBuf.readRange 0 (p.length + 2 + 1)
      = withTrailer s.params.crcUpdate (c :: p) := by
    have h := Memory.readRange_writeBytes s.rxBuf 0 (withTrailer s.params.crcUpdate (c :: p))
    rwa [length_withTrailer, List.length_cons, Nat.add_right_comm] at h
  rw [Memory.readRange_cons, Memory.readRange_append, withTrailer, List.cons_append] at hread
  obtain ⟨hctrl, hrest⟩ := List.cons.inj hread
  have hlen : (s.receivedFrame (withTrailer s.params.crcUpdate (c :: p))).rxLen - 3 = p.length := by
    change 0 + (withTrailer s.params.crcUpdate (c :: p)).length - 3 = p.length
    rw [length_withTrailer, List.length_cons]
    omega
  refine ⟨hctrl, ?_⟩
  rw [State.framePayload, hlen]
  exact (List.append_inj hrest (Memory.length_readRange _ _ _)).1

theorem dataControl_fields (rx q : Seq) :
    (dataControl rx q).getLsbD 7 = true ∧ (dataControl rx q).extractLsb' 0 3 = q := by
  have hfields : ∀ rx q : Seq, (dataControl rx q).getLsbD 7 = true ∧ (dataControl rx q).extractLsb' 0 3 = q := by decide
  exact hfields rx q

theorem ackControl_fields (rx q : Seq) :
    (ackControl rx q).getLsbD 7 = false ∧ (ackControl rx q).extractLsb' 3 3 = rx := by
  have hfields : ∀ rx q : Seq, (ackControl rx q).getLsbD 7 = false ∧ (ackControl rx q).extractLsb' 3 3 = rx := by decide
  exact hfields rx q

/-! ### The data frame -/

/-- 44 R256: a valid data frame in order, where no piggybacked ACK is processed. -/
theorem exec_feed_accepts (hok : s.faultCode = 0) (hvalid : s.closesValidFrame s.params.frameByte)
    (hdata : isData s.frameControl = true) (hseq : senderSeq s.frameControl = s.rxSeq)
    (hpiggy : s.params.piggybackOnData = false) :
    exec (.feed s.params.frameByte) s = .next (s.answered (seqAdd s.rxSeq 1) [.deliver s.framePayload]) := by
  have hjudged : s.afterPiggyback s.frameControl = s := if_neg (by simp [hpiggy])
  rw [exec_feed_closes hok hvalid.1 hvalid.closeFrame_eq, if_pos hdata, s.dataFrame_accepted hseq, s.accepted_eq_answered,
    hjudged]

/-- Settles O56: the closing delimiter finds a valid data frame in order, whose payload is the sender's. -/
theorem sentFrameIsDelivered : Obligations.SentFrameIsDelivered := by
  intro s peerRx p hP hok hpiggy hroom hbetween
  have hvalid := s.receivedFrame_closesValidFrame (dataControl peerRx s.rxSeq :: p) (List.cons_ne_nil _ _)
  obtain ⟨hctrl, hpayload⟩ := s.receivedFrame_bytes (dataControl peerRx s.rxSeq) p
  obtain ⟨hdata, hseq⟩ := dataControl_fields peerRx s.rxSeq
  have hclose := exec_feed_accepts (by exact hok) hvalid ((congrArg isData hctrl).trans hdata)
    ((congrArg senderSeq hctrl).trans hseq) hpiggy
  rw [hpayload] at hclose
  rw [wireBytes_frameEvents]
  refine ⟨_, execAll_feeds_frameWire hP.1 hok hbetween _ ?_ hclose, rfl, rfl, hok, rfl, rfl, rfl, rfl, rfl⟩
  rwa [length_withTrailer, List.length_cons]

/-! ### The ACK-only frame -/

/-- `s` with the receive path of `u` (10 R34, R35, R37, R38, R46). -/
def State.withReceivePath (s u : State) : State :=
  { s with frameState := u.frameState, rxCrc := u.rxCrc, rxLen := u.rxLen, rxOvf := u.rxOvf, rxBuf := u.rxBuf }

theorem State.clearSlots_withReceivePath (s u : State) (q : Seq) (n : Nat) :
    (s.withReceivePath u).clearSlots q n = (s.clearSlots q n).withReceivePath u := by
  induction n with
  | zero => rfl
  | succ n ih =>
    rw [State.clearSlots_succ, State.clearSlots_succ, ih]
    rfl

/-- `AckUpto` neither reads nor writes the receive path. -/
theorem State.ackUpto_withReceivePath (s u : State) (p : Seq) :
    (s.withReceivePath u).ackUpto p = (s.ackUpto p).withReceivePath u := by
  by_cases h : seqDist s.ackSeq p = 0 ∨ s.outstanding < seqDist s.ackSeq p
  · rw [s.ackUpto_noop h, (s.withReceivePath u).ackUpto_noop h]
  · obtain ⟨h₀, h₁⟩ := not_or.mp h
    rw [s.ackUpto_advance h₀ (Nat.le_of_not_lt h₁), (s.withReceivePath u).ackUpto_advance h₀ (Nat.le_of_not_lt h₁)]
    have hclear := s.clearSlots_withReceivePath u s.ackSeq (seqDist s.ackSeq p)
    change (s.withReceivePath u).clearSlots (s.withReceivePath u).ackSeq (seqDist (s.withReceivePath u).ackSeq p) = _ at hclear
    simp only [hclear]
    rfl

/-- Settles O57: the closing delimiter runs `AckUpto`, which does not see what the frame left in the receive path. -/
theorem sentAckIsProcessed : Obligations.SentAckIsProcessed := by
  rintro s p peerTx ⟨hescape, ⟨-, hbuf, -⟩, -⟩ hok hbetween
  have hvalid := s.receivedFrame_closesValidFrame [ackControl p peerTx] (List.cons_ne_nil _ _)
  obtain ⟨hctrl, -⟩ := s.receivedFrame_bytes (ackControl p peerTx) []
  obtain ⟨hack, hp⟩ := ackControl_fields p peerTx
  have hclose := ackFrameRunsAckUpto _ _ (by exact hok) hvalid hctrl hack
  have hsame : s.receivedFrame (withTrailer s.params.crcUpdate [ackControl p peerTx])
      = s.withReceivePath (s.receivedFrame (withTrailer s.params.crcUpdate [ackControl p peerTx])) := rfl
  rw [wireBytes_frameEvents]
  refine ⟨_, execAll_feeds_frameWire hescape hok hbetween _ ?_ hclose, ?_⟩
  · rwa [length_withTrailer]
  · rw [hp, hsame, State.ackUpto_withReceivePath]
    rfl

end Sys2Proof.Machine
end

section
/-! PROOFS. Bytes past `SLOT_LEN` and `RX_LEN` are never read (10 R45, R46): two states that differ only there stay so under every
step, with the same events (log 9).

Agreement is a simulation. Every condition a command tests, every byte it reads and every event it emits is the same in the two
states; so the two runs take the same branch, and each branch's next states agree again. -/

namespace Sys2Proof.Machine

variable {s t : State}

/-! ### Agreement of slots -/

theorem Slot.agrees_refl (a : Slot) : a.agrees a := ⟨rfl, rfl, rfl, fun _ _ => rfl⟩

theorem Slot.agrees.status {a b : Slot} (h : a.agrees b) : a.status = b.status := h.1

theorem Slot.agrees.len {a b : Slot} (h : a.agrees b) : a.len = b.len := h.2.1

theorem Slot.agrees.time {a b : Slot} (h : a.agrees b) : a.time = b.time := h.2.2.1

theorem Slot.agrees.bytes {a b : Slot} (h : a.agrees b) : ∀ k < a.len, a.payload.read k = b.payload.read k := h.2.2.2

theorem Slot.agrees.payload {a b : Slot} (h : a.agrees b) : a.payload.readRange 0 a.len = b.payload.readRange 0 b.len := by
  rw [← h.len]
  exact Memory.readRange_congr fun k hk => by rw [Nat.zero_add, h.bytes k hk]

/-- 42 R185: the stored byte joins those below the new `SLOT_LEN`. -/
theorem Slot.agrees.append {a b : Slot} (h : a.agrees b) (v : Byte) :
    ({ a with len := a.len + 1, payload := a.payload.write a.len v } : Slot).agrees
      { b with len := b.len + 1, payload := b.payload.write b.len v } := by
  obtain ⟨hstatus, hlen, htime, hbytes⟩ := h
  refine ⟨hstatus, congrArg (· + 1) hlen, htime, fun k hk => ?_⟩
  change (a.payload.write a.len v).read k = (b.payload.write b.len v).read k
  rw [Memory.read_write, Memory.read_write, ← hlen]
  split
  · rfl
  · next hne => exact hbytes k (lt_of_le_of_ne (Nat.le_of_lt_succ hk) hne)

/-! ### Agreement of states -/

/-- Agreement, with the one state written by the other. -/
theorem State.agrees_iff : s.agrees t ↔ ∃ slots buf, s = { t with slots := slots, rxBuf := buf }
    ∧ List.Forall₂ Slot.agrees slots t.slots ∧ ∀ k < t.rxLen, buf.read k = t.rxBuf.read k := by
  constructor
  · rintro ⟨hs, hslots, hbuf⟩
    refine ⟨_, _, hs, hslots, ?_⟩
    rwa [hs] at hbuf
  · rintro ⟨slots, buf, rfl, hslots, hbuf⟩
    exact ⟨rfl, hslots, hbuf⟩

theorem forall₂_modify {α : Type} {r : α → α → Prop} {xs ys : List α} (h : List.Forall₂ r xs ys) (i : Nat) {f g : α → α}
    (hfg : ∀ x y, r x y → r (f x) (g y)) : List.Forall₂ r (xs.modify i f) (ys.modify i g) := by
  induction h generalizing i with
  | nil => cases i <;> exact .nil
  | cons hxy _ ih =>
    cases i with
    | zero => exact .cons (hfg _ _ hxy) ‹_›
    | succ i => exact .cons hxy (ih i)

theorem forall₂_any_eq {α : Type} {r : α → α → Prop} {xs ys : List α} (h : List.Forall₂ r xs ys) {f : α → Bool}
    (hf : ∀ x y, r x y → f x = f y) : xs.any f = ys.any f := by
  induction h with
  | nil => rfl
  | cons hxy _ ih => rw [List.any_cons, List.any_cons, hf _ _ hxy, ih]

theorem forall₂_getD {α : Type} {r : α → α → Prop} {xs ys : List α} {d : α} (h : List.Forall₂ r xs ys) (hd : r d d) (i : Nat) :
    r (xs.getD i d) (ys.getD i d) := by
  induction h generalizing i with
  | nil => exact hd
  | cons hxy _ ih =>
    cases i with
    | zero => exact hxy
    | succ i => exact ih i

/-- Agreeing slot arrays have the same SENT slots, with the same stored times. -/
theorem forall₂_sent_times {xs ys : List Slot} (h : List.Forall₂ Slot.agrees xs ys) (f : Time → Nat) :
    (xs.filter fun sl => sl.status = .sent).map (fun sl => f sl.time)
      = (ys.filter fun sl => sl.status = .sent).map fun sl => f sl.time := by
  induction h with
  | nil => rfl
  | cons hab _ ih =>
    rw [List.filter_cons, List.filter_cons, hab.status]
    split
    · rw [List.map_cons, List.map_cons, hab.time, ih]
    · exact ih

/-! ### What is the same in agreeing states -/

namespace State.agrees

variable (h : s.agrees t)
include h

theorem registers : s = { t with slots := s.slots, rxBuf := s.rxBuf } := h.1

theorem slots : List.Forall₂ Slot.agrees s.slots t.slots := h.2.1

theorem rxBytes : ∀ k < s.rxLen, s.rxBuf.read k = t.rxBuf.read k := h.2.2

theorem params : s.params = t.params := by rw [h.registers]

theorem faultCode : s.faultCode = t.faultCode := by rw [h.registers]

theorem port : s.port = t.port := by rw [h.registers]

theorem rxSeq : s.rxSeq = t.rxSeq := by rw [h.registers]

theorem ackSeq : s.ackSeq = t.ackSeq := by rw [h.registers]

theorem outstanding : s.outstanding = t.outstanding := by rw [h.registers]; rfl

theorem available : s.available = t.available := by rw [h.registers]; rfl

theorem slotOf (q : Seq) : s.slotOf q = t.slotOf q := State.slotOf_congr h.params q

theorem slotOf_txSeq : s.slotOf s.txSeq = t.slotOf t.txSeq := by rw [h.registers]; rfl

theorem frameState : s.frameState = t.frameState := by rw [h.registers]

theorem rxLen : s.rxLen = t.rxLen := by rw [h.registers]

theorem rxOvf : s.rxOvf = t.rxOvf := by rw [h.registers]

theorem rxCrc : s.rxCrc = t.rxCrc := by rw [h.registers]

theorem slot (i : Nat) : (s.slot i).agrees (t.slot i) := forall₂_getD h.slots (Slot.agrees_refl _) i

theorem txOpen : s.txOpen = t.txOpen := by
  have hslot := h.slot (t.slotOf t.txSeq)
  obtain ⟨slots, buf, rfl, -, -⟩ := State.agrees_iff.mp h
  exact congrArg (fun st => decide (st = SlotStatus.preparing)) hslot.status

theorem anySent : s.anySent = t.anySent := forall₂_any_eq h.slots fun a b hab => by rw [hab.status]

theorem rearmDelay : s.rearmDelay = t.rearmDelay := by
  have htimes := forall₂_sent_times h.slots t.elapsed
  obtain ⟨slots, buf, rfl, -, -⟩ := State.agrees_iff.mp h
  have hlargest := congrArg (fun es => es.foldl max 0) htimes
  exact congrArg (fun e => BitVec.ofNat 32 (t.params.ackDelay.toNat - e)) hlargest

theorem overdue (i : Nat) : s.overdue i = t.overdue i := by
  have hslot := h.slot i
  obtain ⟨slots, buf, rfl, -, -⟩ := State.agrees_iff.mp h
  rw [State.overdue, State.overdue, hslot.status, hslot.time]
  rfl

theorem oldestOverdue : s.oldestOverdue = t.oldestOverdue := by
  have hover : s.overdue = t.overdue := funext h.overdue
  rw [State.oldestOverdue, hover]
  obtain ⟨slots, buf, rfl, -, -⟩ := State.agrees_iff.mp h
  rfl

theorem frameControl (hlen : 0 < s.rxLen) : s.frameControl = t.frameControl := h.rxBytes 0 hlen

theorem framePayload : s.framePayload = t.framePayload := by
  have hbytes := h.rxBytes
  obtain ⟨slots, buf, rfl, -, -⟩ := State.agrees_iff.mp h
  exact Memory.readRange_congr fun k hk => hbytes _ (by change k < t.rxLen - 3 at hk; change 1 + k < t.rxLen; omega)

/-! ### Operations keep agreement -/

theorem modifySlot (i : Nat) {f g : Slot → Slot} (hfg : ∀ a b, a.agrees b → (f a).agrees (g b)) :
    (s.modifySlot i f).agrees (t.modifySlot i g) := by
  obtain ⟨slots, buf, rfl, hslots, hbuf⟩ := State.agrees_iff.mp h
  exact ⟨rfl, forall₂_modify hslots i hfg, hbuf⟩

theorem clearSlots (q : Seq) (n : Nat) : (s.clearSlots q n).agrees (t.clearSlots q n) := by
  induction n with
  | zero => exact h
  | succ n ih =>
    rw [State.clearSlots_succ, State.clearSlots_succ, h.slotOf]
    exact ih.modifySlot _ fun a b hab => ⟨rfl, hab.len, hab.time, hab.bytes⟩

theorem ackUpto (p : Seq) : (s.ackUpto p).agrees (t.ackUpto p) := by
  by_cases hnoop : seqDist t.ackSeq p = 0 ∨ t.outstanding < seqDist t.ackSeq p
  · rw [t.ackUpto_noop hnoop, s.ackUpto_noop (by rwa [h.ackSeq, h.outstanding])]
    exact h
  · obtain ⟨h₀, h₁⟩ := not_or.mp hnoop
    have hcleared : (s.clearSlots s.ackSeq (seqDist s.ackSeq p)).agrees (t.clearSlots t.ackSeq (seqDist t.ackSeq p)) := by
      rw [h.ackSeq]
      exact h.clearSlots _ _
    rw [t.ackUpto_advance h₀ (Nat.le_of_not_lt h₁),
      s.ackUpto_advance (by rwa [h.ackSeq]) (by rw [h.ackSeq, h.outstanding]; exact Nat.le_of_not_lt h₁)]
    simp only [hcleared.anySent, hcleared.rearmDelay]
    obtain ⟨slots, buf, rfl, -, hbuf⟩ := State.agrees_iff.mp h
    exact ⟨rfl, hcleared.slots, hbuf⟩

theorem afterPiggyback (ctrl : Byte) : (s.afterPiggyback ctrl).agrees (t.afterPiggyback ctrl) := by
  rw [State.afterPiggyback, State.afterPiggyback, h.params]
  split
  · exact h.ackUpto _
  · exact h

theorem sendAck : s.sendAck.agrees t.sendAck := by
  rw [State.sendAck_eq, State.sendAck_eq]
  obtain ⟨slots, buf, rfl, hslots, hbuf⟩ := State.agrees_iff.mp h
  exact ⟨rfl, hslots, hbuf⟩

theorem startFrame : s.startFrame.agrees t.startFrame := by
  obtain ⟨slots, buf, rfl, hslots, -⟩ := State.agrees_iff.mp h
  exact ⟨rfl, hslots, fun _ hk => absurd hk (Nat.not_lt_zero _)⟩

theorem outputs (es : List Event) : (s.outputs es).agrees (t.outputs es) := by
  obtain ⟨slots, buf, rfl, hslots, hbuf⟩ := State.agrees_iff.mp h
  exact ⟨rfl, hslots, hbuf⟩

theorem withRxSeq (q : Seq) : ({ s with rxSeq := q } : State).agrees { t with rxSeq := q } := by
  obtain ⟨slots, buf, rfl, hslots, hbuf⟩ := State.agrees_iff.mp h
  exact ⟨rfl, hslots, hbuf⟩

theorem withFrameState (fs : FrameState) : ({ s with frameState := fs } : State).agrees { t with frameState := fs } := by
  obtain ⟨slots, buf, rfl, hslots, hbuf⟩ := State.agrees_iff.mp h
  exact ⟨rfl, hslots, hbuf⟩

theorem armTimer (d : Time) : (s.armTimer d).agrees (t.armTimer d) := by
  obtain ⟨slots, buf, rfl, hslots, hbuf⟩ := State.agrees_iff.mp h
  exact ⟨rfl, hslots, hbuf⟩

theorem takeFault (r : Raised) : (s.takeFault r).agrees (t.takeFault r) := by
  obtain ⟨slots, buf, rfl, hslots, hbuf⟩ := State.agrees_iff.mp h
  exact ⟨rfl, hslots, hbuf⟩

theorem acceptRequest (r : Request) (rest : List Request) : (s.acceptRequest r rest).agrees (t.acceptRequest r rest) := by
  obtain ⟨slots, buf, rfl, hslots, hbuf⟩ := State.agrees_iff.mp h
  exact ⟨rfl, hslots, hbuf⟩

theorem initialise : s.initialise.agrees t.initialise := by
  obtain ⟨slots, buf, rfl, hslots, -⟩ := State.agrees_iff.mp h
  refine ⟨rfl, ?_, fun _ hk => absurd hk (Nat.not_lt_zero _)⟩
  exact List.forall₂_map_left_iff.mpr (List.forall₂_map_right_iff.mpr
    (hslots.imp fun a b _ => ⟨rfl, rfl, rfl, fun _ hk => absurd hk (Nat.not_lt_zero _)⟩))

theorem retransmit (q : Seq) : (s.retransmit q).agrees (t.retransmit q) := by
  have hpayload := (h.slot (t.slotOf q)).payload
  rw [State.retransmit_eq, State.retransmit_eq]
  obtain ⟨slots, buf, rfl, hslots, hbuf⟩ := State.agrees_iff.mp h
  have hframe : dataControl t.rxSeq q :: (({ t with slots := slots, rxBuf := buf } : State).slot (t.slotOf q)).payload.readRange 0
      (({ t with slots := slots, rxBuf := buf } : State).slot (t.slotOf q)).len
      = dataControl t.rxSeq q :: (t.slot (t.slotOf q)).payload.readRange 0 (t.slot (t.slotOf q)).len :=
    congrArg _ hpayload
  refine ⟨?_, forall₂_modify hslots _ fun a b hab => ⟨hab.status, hab.len, rfl, hab.bytes⟩, hbuf⟩
  exact congrArg (fun frame => ({ t with
    txCrc := crcOf t.params.crcUpdate frame
    out := t.out ++ frameEvents t.params frame
    slots := slots.modify (t.slotOf q) fun sl => { sl with time := t.now }
    rxBuf := buf } : State)) hframe

theorem checkTimeouts : s.checkTimeouts.agrees t.checkTimeouts := by
  rw [State.checkTimeouts, State.checkTimeouts, h.anySent, h.oldestOverdue, h.params]
  split
  · cases t.oldestOverdue with
    | none => exact h.armTimer _
    | some q => exact (h.retransmit q).armTimer _
  · exact h

theorem dataFrame (ctrl : Byte) : (s.dataFrame ctrl).agrees (t.dataFrame ctrl) := by
  rw [State.dataFrame_eq, State.dataFrame_eq, h.rxSeq, h.framePayload]
  split
  · exact (((h.afterPiggyback ctrl).withRxSeq _).outputs _).sendAck
  · exact (h.afterPiggyback ctrl).sendAck

end State.agrees

/-! ### Outcomes of a command's body -/

/-- Two outcomes of a body: states that agree, or the same fault. -/
inductive AgreeingOutcomes : Except Raised State → Except Raised State → Prop where
  | ok {s t : State} (h : s.agrees t) : AgreeingOutcomes (.ok s) (.ok t)
  | error (r : Raised) : AgreeingOutcomes (.error r) (.error r)

theorem AgreeingOutcomes.map {x y : Except Raised State} (h : AgreeingOutcomes x y) {f : State → State}
    (hf : ∀ s t : State, s.agrees t → (f s).agrees (f t)) : AgreeingOutcomes (x.map f) (y.map f) := by
  cases h with
  | ok h => exact .ok (hf _ _ h)
  | error r => exact .error r

/-- A command with agreeing outcomes steps agreeing states to agreeing states. -/
theorem State.agrees.perform (h : s.agrees t) {body : State → Except Raised State}
    (hbody : AgreeingOutcomes (body s) (body t)) :
    ∃ s' t', s.perform body = .next s' ∧ t.perform body = .next t' ∧ s'.agrees t' := by
  by_cases hok : t.faultCode = 0
  · generalize hx : body s = x at hbody
    generalize hy : body t = y at hbody
    cases hbody with
    | ok h' => exact ⟨_, _, s.perform_ok (h.faultCode.trans hok) hx, t.perform_ok hok hy, h'⟩
    | error r => exact ⟨_, _, s.perform_error (h.faultCode.trans hok) hx, t.perform_error hok hy, h.takeFault r⟩
  · exact ⟨_, _, s.perform_faulted (h.faultCode ▸ hok), t.perform_faulted hok, h⟩

/-! ### FEED -/

namespace State.agrees

variable (h : s.agrees t)
include h

theorem rxAppend (v : Byte) : AgreeingOutcomes (s.rxAppend v) (t.rxAppend v) := by
  have hroom_iff : s.rxLen < s.params.rxBufSize ↔ t.rxLen < t.params.rxBufSize := by rw [h.rxLen, h.params]
  rcases t.rxAppend_cases v with ⟨hroom, e⟩ | ⟨hfull, hdrop, e⟩ | ⟨hfull, hfault, e⟩ <;> rw [e]
  · rw [s.rxAppend_fits (hroom_iff.mpr hroom)]
    obtain ⟨slots, buf, rfl, hslots, hbuf⟩ := State.agrees_iff.mp h
    refine .ok ⟨rfl, hslots, fun k hk => ?_⟩
    change (buf.write t.rxLen v).read k = (t.rxBuf.write t.rxLen v).read k
    rw [Memory.read_write, Memory.read_write]
    split
    · rfl
    · next hne => exact hbuf k (lt_of_le_of_ne (Nat.le_of_lt_succ hk) hne)
  · rw [s.rxAppend_drops (hroom_iff.not.mpr hfull) (by rwa [h.params])]
    obtain ⟨slots, buf, rfl, hslots, hbuf⟩ := State.agrees_iff.mp h
    exact .ok ⟨rfl, hslots, hbuf⟩
  · rw [s.rxAppend_faults (hroom_iff.not.mpr hfull) (by rwa [h.params])]
    exact .error _

/-- 44 R250: a frame that is looked into holds a control byte. -/
theorem dispatch (hlen : s.rxOvf = false → 0 < s.rxLen) : AgreeingOutcomes s.dispatch t.dispatch := by
  rcases t.dispatch_cases with ⟨hbad, e⟩ | ⟨-, -, hshort, hdrop, e⟩ | ⟨ho, hc, hshort, hfault, e⟩ | ⟨ho, hc, hl, hdata, e⟩
      | ⟨ho, hc, hl, hack, e⟩ <;> rw [e]
  · rw [State.dispatch_invalid (by rwa [h.rxOvf, h.rxCrc])]
    exact .ok h
  · rw [State.dispatch_short_drop (h.rxLen.trans hshort) (by rwa [h.params])]
    exact .ok h
  · rw [State.dispatch_short_fault (h.rxOvf.trans ho) (h.rxCrc.trans hc) (h.rxLen.trans hshort) (by rwa [h.params])]
    exact .error _
  all_goals
    have hctrl := h.frameControl (hlen (h.rxOvf.trans ho))
    rw [State.dispatch, h.rxOvf, h.rxCrc, h.rxLen, hctrl]
  · simp only [ho, hc, hl, hdata, Bool.false_eq_true, if_false, ne_eq, not_true, if_true]
    exact .ok (h.dataFrame _)
  · simp only [ho, hc, hl, hack, Bool.false_eq_true, if_false, ne_eq, not_true]
    exact .ok (h.ackUpto _)

theorem closeFrame : AgreeingOutcomes s.closeFrame t.closeFrame := by
  by_cases hspurious : s.rxLen < 2 ∧ s.rxOvf = false
  · obtain ⟨hlen, ho⟩ := id hspurious
    rw [s.closeFrame_ignores hlen ho, t.closeFrame_ignores (h.rxLen ▸ hlen) (h.rxOvf ▸ ho)]
    exact .ok h
  · rw [State.closeFrame, State.closeFrame, ← h.rxOvf, ← h.rxLen, if_neg hspurious, if_neg hspurious]
    exact h.dispatch fun ho => by
      have hlen : ¬ s.rxLen < 2 := fun hlt => hspurious ⟨hlt, ho⟩
      omega

theorem outsideByte (b : Byte) : AgreeingOutcomes (s.outsideByte b) (t.outsideByte b) := by
  rw [State.outsideByte, State.outsideByte, h.params]
  cases t.params.outsidePolicy with
  | fatal => exact .error _
  | resync => exact .ok h

theorem feedByte (b : Byte) : AgreeingOutcomes (s.feedByte b) (t.feedByte b) := by
  have hframe : s.params.frameByte = t.params.frameByte := by rw [h.params]
  have hescape : s.params.escapeByte = t.params.escapeByte := by rw [h.params]
  rw [State.feedByte, State.feedByte, h.frameState, hframe, hescape]
  cases t.frameState with
  | outsideFrame =>
    by_cases hb : b = t.params.frameByte
    · simpa only [if_pos hb] using .ok h.startFrame
    · simpa only [if_neg hb] using h.outsideByte b
  | inFrame =>
    by_cases hb : b = t.params.frameByte
    · simpa only [if_pos hb] using h.closeFrame.map fun _ _ => startFrame
    · by_cases he : b = t.params.escapeByte
      · simpa only [if_neg hb, if_pos he] using .ok (h.withFrameState .inFrameEscaped)
      · simpa only [if_neg hb, if_neg he] using h.rxAppend b
  | inFrameEscaped =>
    rw [h.params]
    exact (h.rxAppend _).map fun _ _ h' => h'.withFrameState .inFrame

/-! ### The application's commands -/

theorem startPacket : AgreeingOutcomes s.startPacket t.startPacket := by
  have hfull_iff : s.outstanding = s.params.window.size ↔ t.outstanding = t.params.window.size := by
    rw [h.outstanding, h.params]
  rcases t.startPacket_cases with ⟨ho, e⟩ | ⟨ho, hfull, e⟩ | ⟨ho, hroom, e⟩ <;> rw [e]
  · rw [s.startPacket_open (h.txOpen.trans ho)]
    exact .error _
  · rw [s.startPacket_full (h.txOpen.trans ho) (hfull_iff.mpr hfull)]
    exact .error _
  · rw [s.startPacket_ok (h.txOpen.trans ho) (hfull_iff.not.mpr hroom)]
    obtain ⟨slots, buf, rfl, hslots, hbuf⟩ := State.agrees_iff.mp h
    refine .ok ⟨rfl, forall₂_modify hslots _ fun a b hab => ?_, hbuf⟩
    exact ⟨rfl, rfl, hab.time, fun _ hk => absurd hk (Nat.not_lt_zero _)⟩

theorem appendByte (v : Byte) : AgreeingOutcomes (s.appendByte v) (t.appendByte v) := by
  have hlen : (s.slot (s.slotOf s.txSeq)).len = (t.slot (t.slotOf t.txSeq)).len := by
    rw [h.slotOf_txSeq]
    exact (h.slot _).len
  rcases t.appendByte_cases v with ⟨ho, e⟩ | ⟨ho, hfull, e⟩ | ⟨ho, hroom, e⟩ <;> rw [e]
  · rw [s.appendByte_closed v (h.txOpen.trans ho)]
    exact .error _
  · rw [s.appendByte_full v (h.txOpen.trans ho) (by rwa [hlen, h.params])]
    exact .error _
  · rw [s.appendByte_ok v (h.txOpen.trans ho) (by rwa [hlen, h.params])]
    obtain ⟨slots, buf, rfl, hslots, hbuf⟩ := State.agrees_iff.mp h
    exact .ok ⟨rfl, forall₂_modify hslots _ fun a b hab => hab.append v, hbuf⟩

theorem finishPacket : AgreeingOutcomes s.finishPacket t.finishPacket := by
  rcases t.finishPacket_cases with ⟨ho, e⟩ | ⟨ho, e⟩ <;> rw [e]
  · rw [s.finishPacket_closed (h.txOpen.trans ho)]
    exact .error _
  · rw [s.finishPacket_ok (h.txOpen.trans ho)]
    obtain ⟨slots, buf, rfl, hslots, hbuf⟩ := State.agrees_iff.mp h
    exact .ok ⟨rfl, forall₂_modify hslots _ fun a b hab => ⟨rfl, hab.len, rfl, hab.bytes⟩, hbuf⟩

/-! ### Every command and every step -/

theorem exec (i : Instr) :
    ∃ s' t', Machine.exec i s = .next s' ∧ Machine.exec i t = .next t' ∧ s'.agrees t' := by
  cases i with
  | init => exact ⟨_, _, rfl, rfl, h.initialise⟩
  | feed b => exact h.perform (body := fun s => s.feedByte b) (h.feedByte b)
  | start => exact h.perform h.startPacket
  | append b => exact h.perform (body := fun s => s.appendByte b) (h.appendByte b)
  | finish => exact h.perform h.finishPacket
  | avail =>
    exact h.perform (body := fun s => .ok (s.output (.avail s.available))) (.ok (h.available ▸ h.outputs _))
  | tick => exact h.perform (body := fun s => .ok s.checkTimeouts) (.ok h.checkTimeouts)

theorem step : ∃ s' t', Machine.step s = .next s' ∧ Machine.step t = .next t' ∧ s'.agrees t' := by
  rcases step_cases t with ⟨hidle, e⟩ | ⟨r, rest, i, hp, hd, e⟩ | ⟨r, rest, d, hp, hd, e⟩ <;> rw [e]
  · exact ⟨s, t, step_idle s (h.port.trans hidle), rfl, h⟩
  · rw [step_decoded s (h.port.trans hp) hd]
    exact (h.acceptRequest r rest).exec i
  · rw [step_rejected s (h.port.trans hp) hd]
    exact (h.acceptRequest r rest).perform (.error _)

end State.agrees

/-- Settles O54: agreeing states step to agreeing states. -/
theorem unwrittenBytesUnobserved : Obligations.UnwrittenBytesUnobserved := by
  intro s t s' h hstep
  obtain ⟨u, t', hs, ht, hagrees⟩ := h.step
  cases hstep.symm.trans hs
  exact ⟨t', ht, hagrees⟩

end Sys2Proof.Machine
end
